-- ==== Sys2Proof/Word.lean ====
section
/-! DEFINITION. The widths the spec fixes (00_scope.md R5) and the bit vectors of that width. -/

namespace Sys2Proof

/-- `W`, the width of the display word and of the external register (R5, R6: `CHAIN_LEN = W`). -/
abbrev displayWidth : Nat := 17

/-- A command word `cmd[20:0]` (30_encoding.md R81). -/
abbrev CmdWord := BitVec 21

/-- A display word, the operand of WRITE (R5, R86). -/
abbrev Display := BitVec 17

/-- A four-bit button vector: bit 0 red, 1 green, 2 blue, 3 key (R7, R62). -/
abbrev Nibble := BitVec 4

/-- The bits of `INTCFG` as the CFGINT operand carries them (10_state.md R37). -/
abbrev IntCfg := BitVec 9

end Sys2Proof
end

