-- ==== Sys2Proof/Config.lean ====
section
/-! DEFINITION. The parameters the source leaves open (00_scope.md R6, D8, D11). No source gives a value, so none
is given here: each is built from an opaque constant so that it meets R6's constraint whatever that constant is,
and every value R6 admits is a value of it (assumption log 8). -/

namespace Sys2Proof

/-- The parameters of R6 that the model takes as arguments. `NB`, `W`, `NSTATUS` and `CHAIN_LEN` are fixed (R5,
R6) and stand in the types. -/
structure Params where
  /-- `DEBOUNCE_WINDOW`. -/
  debounceWindow : Nat
  /-- `HOLD_WINDOW`. -/
  holdWindow : Nat
  /-- `CNT_W`, the counters' width; unobservable (40_debounce.md R120). -/
  cntW : Nat
  /-- `IDLE_TIMEOUT_TICKS`. -/
  idleTimeoutTicks : Nat
  /-- `IDLE_W`, the timer's width; unobservable (42_governor.md R186). -/
  idleW : Nat
  /-- `SR_DELAY`, the length of `Delay()`; no rule reads it (41_serial.md R143). -/
  srDelay : Nat
deriving DecidableEq, Repr

/-- A value in `1 .. 2^w - 1`, any of them as `n` varies: how an opaque number becomes a constant that R6 admits. -/
def Config.fit (n w : Nat) : Nat := n % (2 ^ w - 1) + 1

/-- Free: how far `CNT_W` exceeds 8 (R6, log 8). -/
opaque Config.freeCntW : Nat
/-- Free: `DEBOUNCE_WINDOW` before it is fitted to `CNT_W` (R6, log 8). -/
opaque Config.freeDebounceWindow : Nat
/-- Free: `HOLD_WINDOW` before it is fitted to `CNT_W` (R6, log 8). -/
opaque Config.freeHoldWindow : Nat
/-- Free: how far `IDLE_W` exceeds 1 (R6, log 8). -/
opaque Config.freeIdleW : Nat
/-- Free: `IDLE_TIMEOUT_TICKS` before it is fitted to `IDLE_W` (R6, log 8). -/
opaque Config.freeIdleTimeout : Nat
/-- Free: how far `SR_DELAY` exceeds 1 (R6, log 8). -/
opaque Config.freeSrDelay : Nat

/-- This machine's parameters: nothing is known of them but R6's constraints. -/
def Config.params : Params where
  debounceWindow := Config.fit Config.freeDebounceWindow (Config.freeCntW + 8)
  holdWindow := Config.fit Config.freeHoldWindow (Config.freeCntW + 8)
  cntW := Config.freeCntW + 8
  idleTimeoutTicks := Config.fit Config.freeIdleTimeout (Config.freeIdleW + 1)
  idleW := Config.freeIdleW + 1
  srDelay := Config.freeSrDelay + 1

end Sys2Proof
end

