-- ==== Sys2Proof/Syntax.lean ====
section
/-! DEFINITION. The ten commands of BBX command set 1 as syntax (30_encoding.md R89). An operand out of range
cannot be written down (20_memory.md R64): the types carry the well-formedness of a command. -/

namespace Sys2Proof

/-- A button, the index of the button file (20_memory.md R62). -/
inductive ButtonId where
  | red | green | blue | key
deriving DecidableEq, Repr

/-- One constructor per row of the opcode map (30_encoding.md R89). -/
inductive Instr where
  /-- SAMPLE, format N (R110). -/
  | sample
  /-- DEB, format N (R118). -/
  | deb
  /-- CLRR b, format B (R121). -/
  | clrr (b : ButtonId)
  /-- CLRF b, format B (R122). -/
  | clrf (b : ButtonId)
  /-- OE f, format F: `f` is the source's boolean "enabled" (R140). -/
  | oe (f : Bool)
  /-- SRRST, format N (R141). -/
  | srrst
  /-- WRITE v, format V (R142). -/
  | write (v : Display)
  /-- STATUS s, format S (R192). -/
  | status (s : Nibble)
  /-- GOV f, format F: `f` is `is_active` (R183, R181). -/
  | gov (f : Bool)
  /-- CFGINT c, format C: the new `INTCFG` (R193). -/
  | cfgint (c : IntCfg)
deriving DecidableEq, Repr

end Sys2Proof
end

