-- ==== Sys2Proof/WellFormed.lean ====
section
/-! DEFINITION. What must hold of the model's inputs: R6's constraints on the parameters, and the order of a
host's commands (10_state.md R28, 30_encoding.md R91). A single command needs no check (20_memory.md R64). -/

namespace Sys2Proof

/-- R6's constraints, one check per constrained parameter. -/
def Params.wellFormed (p : Params) : Bool :=
  decide (1 ≤ p.debounceWindow) && decide (p.debounceWindow < 2 ^ p.cntW)
    && decide (1 ≤ p.holdWindow) && decide (p.holdWindow < 2 ^ p.cntW)
    && decide (8 ≤ p.cntW)
    && decide (1 ≤ p.idleTimeoutTicks) && decide (p.idleTimeoutTicks < 2 ^ p.idleW)
    && decide (1 ≤ p.srDelay)

/-- The column "commands accepted" of R28's table: is the command accepted in this phase? -/
def Instr.acceptedIn : Instr → BitVec 2 → Bool
  | .sample, p => p == 0
  | .deb, p => p == 1
  | .gov _, p => p == 2
  | .clrr _, p | .clrf _, p | .oe _, p | .srrst, p | .write _, p | .status _, p | .cfgint _, p => p == 0 || p == 2

/-- The column "next" of R28's table: the phase after the command. -/
def Instr.phaseAfter : Instr → BitVec 2 → BitVec 2
  | .sample, _ => 1
  | .deb, _ => 2
  | .gov _, _ => 0
  | .clrr _, p | .clrf _, p | .oe _, p | .srrst, p | .write _, p | .status _, p | .cfgint _, p => p

/-- A host's program keeps the iteration order from phase `p` on: no command of it is out of phase
(70_reset_and_hazards.md R260). -/
def wellOrdered : BitVec 2 → List Instr → Bool
  | _, [] => true
  | p, i :: is => i.acceptedIn p && wellOrdered (i.phaseAfter p) is

end Sys2Proof
end

