-- ==== Sys2Proof/Decode.lean ====
section
/-! DEFINITION. The 21-bit command word: the decoder (30_encoding.md R81 to R90), the encoder from the same
formats, and the host's view of the decoder. -/

namespace Sys2Proof

/-- Why a word is reserved (R90). -/
inductive Reserved where
  /-- Opcode 0x0 or 0xB to 0xF. -/
  | opcode
  /-- A must-be-zero bit of the format is 1. -/
  | mustBeZero
deriving DecidableEq, Repr

/-- What a word decodes to: a command, or reserved with the reason. Total (R90). -/
inductive Decoded where
  | instr (i : Instr)
  | reserved (why : Reserved)
deriving DecidableEq, Repr

/-- `op = cmd[20:17]` (R81). -/
def opField (c : CmdWord) : BitVec 4 := c.extractLsb' 17 4

/-- `arg = cmd[16:0]` (R81). -/
def argField (c : CmdWord) : BitVec 17 := c.extractLsb' 0 17

/-- The button a two-bit index names (R62, R84). -/
def ButtonId.ofBits (b : BitVec 2) : ButtonId :=
  if b = 0 then .red else if b = 1 then .green else if b = 2 then .blue else .key

/-- The two-bit index of a button (R62). -/
def ButtonId.toBits : ButtonId → BitVec 2
  | .red => 0 | .green => 1 | .blue => 2 | .key => 3

/-- `i` if the must-be-zero bits are all zero, else reserved (R90). -/
def ifZero {w : Nat} (mbz : BitVec w) (i : Instr) : Decoded :=
  if mbz = 0 then .instr i else .reserved .mustBeZero

/-- Format N: no operand, `cmd[16:0]` MBZ (R83). -/
def decodeN (a : BitVec 17) (i : Instr) : Decoded := ifZero a i

/-- Format B: `b = cmd[1:0]`, `cmd[16:2]` MBZ (R84). -/
def decodeB (a : BitVec 17) (mk : ButtonId → Instr) : Decoded :=
  ifZero (a.extractLsb' 2 15) (mk (.ofBits (a.extractLsb' 0 2)))

/-- Format F: `f = cmd[0]`, `cmd[16:1]` MBZ (R85). -/
def decodeF (a : BitVec 17) (mk : Bool → Instr) : Decoded :=
  ifZero (a.extractLsb' 1 16) (mk (a.getLsbD 0))

/-- Format S: `s = cmd[3:0]`, `cmd[16:4]` MBZ (R87). -/
def decodeS (a : BitVec 17) (mk : Nibble → Instr) : Decoded :=
  ifZero (a.extractLsb' 4 13) (mk (a.extractLsb' 0 4))

/-- Format C: the nine bits of `INTCFG`, `cmd[16:9]` MBZ (R88). -/
def decodeC (a : BitVec 17) (mk : IntCfg → Instr) : Decoded :=
  ifZero (a.extractLsb' 9 8) (mk (a.extractLsb' 0 9))

/-- The decoder of R89 and R90. -/
def decode (c : CmdWord) : Decoded :=
  match (opField c).toNat with
  | 0x1 => decodeN (argField c) .sample
  | 0x2 => decodeN (argField c) .deb
  | 0x3 => decodeB (argField c) .clrr
  | 0x4 => decodeB (argField c) .clrf
  | 0x5 => decodeF (argField c) .oe
  | 0x6 => decodeN (argField c) .srrst
  | 0x7 => .instr (.write (argField c))
  | 0x8 => decodeS (argField c) .status
  | 0x9 => decodeF (argField c) .gov
  | 0xA => decodeC (argField c) .cfgint
  | _ => .reserved .opcode

/-- The word `{op, arg}`, that is `op * 2^17 + arg` (R81). -/
def cmdWord (op : BitVec 4) (arg : BitVec 17) : CmdWord := (op.setWidth 21 <<< 17) ||| arg.setWidth 21

/-- The word of a command: its opcode of R89 and its operand extended with zeros to the 17 bits of `arg`, which
leaves every must-be-zero bit of its format zero (R83 to R88). -/
def encode : Instr → CmdWord
  | .sample => cmdWord 0x1 0
  | .deb => cmdWord 0x2 0
  | .clrr b => cmdWord 0x3 (b.toBits.setWidth 17)
  | .clrf b => cmdWord 0x4 (b.toBits.setWidth 17)
  | .oe f => cmdWord 0x5 ((BitVec.ofBool f).setWidth 17)
  | .srrst => cmdWord 0x6 0
  | .write v => cmdWord 0x7 v
  | .status s => cmdWord 0x8 (s.setWidth 17)
  | .gov f => cmdWord 0x9 ((BitVec.ofBool f).setWidth 17)
  | .cfgint c => cmdWord 0xA (c.setWidth 17)

/-- The command a decoding holds, if any. -/
def Decoded.toOption : Decoded → Option Instr
  | .instr i => some i
  | .reserved _ => none

/-- The word on the 21 wires for a number of the host: a number that does not fit them is no command word, and the
reserved word 0 stands for it (log 14). -/
def wordOfNat (w : Nat) : CmdWord := if w < 2 ^ 21 then BitVec.ofNat 21 w else 0

/-- The command the decoder reads from the bits of `w`. A command is one word, so `nbits` adds nothing (R81). -/
def decodeTableWord (_nbits w : Nat) : Option Instr := (decode (wordOfNat w)).toOption

end Sys2Proof
end

