-- ==== Sys2Proof/Machine/State.lean ====
section
/-! DEFINITION. The state of the machine (10_state.md), the reasons a step can stop, and the state after reset. -/

namespace Sys2Proof.Machine

/-- One record of the button file (R20 to R26). The counters are naturals: their width is unobservable
(40_debounce.md R120, log 6). -/
structure Button where
  /-- The raw sample of the most recent DEB, 1 = pressed (R21). -/
  current : Bool
  /-- Equal to `current` between DEBs (R22). -/
  last : Bool
  /-- Ticks left of the debounce window (R23). -/
  debounceCounter : Nat
  /-- Ticks left until the next hold trigger (R24). -/
  holdCounter : Nat
  /-- One-shot flag: the last trigger found the button pressed (R25). -/
  risingEdge : Bool
  /-- One-shot flag: the last trigger found the button released (R26). -/
  fallingEdge : Bool
deriving DecidableEq, Repr

/-- The button file `btn[0..3]` (R20). -/
structure Buttons where
  red : Button
  green : Button
  blue : Button
  key : Button
deriving DecidableEq, Repr

/-- `seq_op` (R29). -/
inductive SeqOp where
  | idle | write | srrst
deriving DecidableEq, Repr

/-- `gstate` (R33). -/
inductive GState where
  | active | asleep
deriving DecidableEq, Repr

/-- The five serial lines (R34, 30_encoding.md R93). -/
inductive Line where
  | data | clk | latch | oeN | rstN
deriving DecidableEq, Repr

/-- The five line registers, `true` = level 1 (R34). -/
structure Lines where
  data : Bool
  clk : Bool
  latch : Bool
  oeN : Bool
  rstN : Bool
deriving DecidableEq, Repr

/-- A wire event `(L, x)` (00_scope.md R9). -/
structure WireEvent where
  line : Line
  level : Bool
deriving DecidableEq, Repr

/-- The external register (R41, 41_serial.md R156): bit `i` of each list is stage or output `i`; `none` is the
spec's "holds no value" (log 5). -/
structure Ext where
  /-- `ext_chain`, the shift stages. -/
  chain : List (Option Bool)
  /-- `ext_out`, the latched parallel outputs. -/
  out : List (Option Bool)
deriving DecidableEq, Repr

/-- A transition an agent may take (R11, 30_encoding.md R92): the agenda's entries (log 1). -/
inductive Turn where
  /-- MAIN accepts the presented command (R80). -/
  | command
  /-- MAIN takes the next micro-step (R147). -/
  | ustep
  /-- MAIN returns from the sleep request (R190). -/
  | resume
  /-- The interrupt handler (R219). -/
  | irq
  /-- ENV: the pins take the levels `p` (R213). -/
  | pinchg (p : Nibble)
  /-- A power cycle, after which the outside world drives the levels `p` (R250, R251, log 4). -/
  | por (p : Nibble)
deriving DecidableEq, Repr

/-- Everything the spec gives the machine (10_state.md), and three fields of the model's own. -/
structure State where
  /-- Model: the parameters of R6; no step writes them (log 8). -/
  params : Params
  /-- The button file (R20). -/
  btn : Buttons
  /-- The sample register (R31). -/
  raw : Nibble
  /-- The position in one iteration (R28). -/
  phase : BitVec 2
  /-- The sequence in progress (R29). -/
  seqOp : SeqOp
  /-- The operand of the WRITE in progress (R29). -/
  seqVal : Display
  /-- The bit index being shifted (R29). -/
  seqI : BitVec 5
  /-- The micro-step within the bit or pulse (R29). -/
  seqStep : BitVec 4
  /-- The idle timer (R32); a natural (42_governor.md R186, log 6). -/
  idleTimer : Nat
  /-- The governor state (R33). -/
  gstate : GState
  /-- The serial line registers (R34). -/
  lines : Lines
  /-- The secondary status indicators (R35). -/
  status : Nibble
  /-- The level-change pending flag (R36). -/
  lcPending : Bool
  /-- The edge pending flags (R36). -/
  edgePending : Nibble
  /-- `INTCFG` (R37). -/
  intcfg : IntCfg
  /-- The levels of the input pins, 0 = pressed (R39). -/
  pin : Nibble
  /-- The handler ran while asleep (R40). -/
  wakeLatch : Bool
  /-- The external register (R41). -/
  ext : Ext
  /-- The wire history, oldest event first (R42). -/
  trace : List WireEvent
  /-- Model: the words the host presents on the command port, the next one first; `cmd_valid` is that the list is
  not empty (R80, log 3). -/
  cmds : List CmdWord
  /-- Model: the transitions to take next, the first one first (R69, log 1). -/
  agenda : List Turn
deriving DecidableEq, Repr

/-- There is no fault: "The source has no error conditions" (00_scope.md R10, 60_exceptions.md R210). So the type
has no constructor and no step can raise one. -/
inductive Fault where
deriving DecidableEq, Repr

/-- Why a step is refused. Each is safe: the machine stops where the spec gives no meaning. -/
inductive Refusal where
  /-- An arm of `exec` without a meaning yet; raised by `exec` only. Safe. -/
  | notModelled (mnemonic : String)
  /-- Raised by accepting a reserved word (30_encoding.md R90, U1). Safe. -/
  | reservedWord (why : Reserved)
  /-- Raised by a ready command in a phase that does not accept it (30_encoding.md R91, U2). Safe. -/
  | outOfPhase (phase : BitVec 2)
  /-- Raised by `GOV 0` with `idle_timer = 0` (U5: the model "must `refuse` the step; it must not wrap"). Safe. -/
  | idleUnderflow
  /-- Raised by USTEP where the sequencer position has no row in R146 or the bit index is outside the display
  word; no reachable state has one (log 9). Safe. -/
  | noMicroStep
deriving DecidableEq, Repr

/-- A record of the button file after reset (R21 to R26). -/
def Button.zero : Button := ⟨false, false, 0, 0, false, false⟩

/-- The line levels after reset (R34). -/
def Lines.reset : Lines := ⟨false, false, false, true, true⟩

/-- The external register holding no value (R41). -/
def Ext.unspecified : Ext := ⟨List.replicate displayWidth none, List.replicate displayWidth none⟩

/-- The state after a power-on with parameters `p`, pin levels `pins`, and nothing presented: the table of
10_state.md section 7. -/
def State.powerOn (p : Params) (pins : Nibble) : State where
  params := p
  btn := ⟨.zero, .zero, .zero, .zero⟩
  raw := 0
  phase := 0
  seqOp := .idle
  seqVal := 0
  seqI := 0
  seqStep := 0
  idleTimer := p.idleTimeoutTicks
  gstate := .active
  lines := .reset
  status := 0
  lcPending := false
  edgePending := 0
  intcfg := 0
  pin := pins
  wakeLatch := false
  ext := .unspecified
  trace := []
  cmds := []
  agenda := []

/-- The machine right after reset: this machine's parameters, and no button pressed (log 4). -/
def State.reset : State := State.powerOn Config.params 0b1111

end Sys2Proof.Machine
end

