-- ==== Sys2Proof/Machine/Operands.lean ====
section
/-! DEFINITION. Operand forms: button selection in the file and in four-bit vectors, display bits, the fields of
`INTCFG`, pin polarity, and access to the line registers. -/

namespace Sys2Proof.Machine

/-- The record `btn[b]` (00_scope.md R8). -/
def Buttons.get (f : Buttons) : ButtonId → Button
  | .red => f.red
  | .green => f.green
  | .blue => f.blue
  | .key => f.key

/-- `btn[b] <- r` (R8); the records do not alias (10_state.md R20). -/
def Buttons.set (f : Buttons) (b : ButtonId) (r : Button) : Buttons :=
  match b with
  | .red => { f with red := r }
  | .green => { f with green := r }
  | .blue => { f with blue := r }
  | .key => { f with key := r }

/-- Bit `b` of a four-bit button vector (R7, R62). -/
def buttonBit (v : Nibble) (b : ButtonId) : Bool := v.getLsbD b.toBits.toNat

/-- The four-bit vector with the given bits 3 down to 0 (R7). -/
def nibbleOf (b3 b2 b1 b0 : Bool) : Nibble :=
  (BitVec.ofBool b3).setWidth 4 <<< 3 ||| (BitVec.ofBool b2).setWidth 4 <<< 2
    ||| (BitVec.ofBool b1).setWidth 4 <<< 1 ||| (BitVec.ofBool b0).setWidth 4

/-- The nine bits of `INTCFG` from its fields: `c = lc_en + 2*edge_en + 32*edge_sel` (42_governor.md R193). -/
def intCfgOf (lc : Bool) (en sel : Nibble) : IntCfg :=
  sel.setWidth 9 <<< 5 ||| en.setWidth 9 <<< 1 ||| (BitVec.ofBool lc).setWidth 9

/-- The four-bit vector whose bit `b` is `f b` (R7). -/
def buttonVector (f : ButtonId → Bool) : Nibble :=
  nibbleOf (f .key) (f .blue) (f .green) (f .red)

/-- The raw samples of pin levels: an active-low pin that is low is pressed (30_encoding.md R94). -/
def pressed (p : Nibble) : Nibble := ~~~p

/-- `v[i]` of a display word (R7, R63). -/
def displayBit (v : Display) (i : BitVec 5) : Bool := v.getLsbD i.toNat

/-- `lc_en` (10_state.md R37). -/
def lcEn (c : IntCfg) : Bool := c.getLsbD 0

/-- `edge_en[3:0]` (R37). -/
def edgeEn (c : IntCfg) : Nibble := c.extractLsb' 1 4

/-- `edge_sel[3:0]`, 0 = the press edge, 1 = the release edge (R37). -/
def edgeSel (c : IntCfg) : Nibble := c.extractLsb' 5 4

/-- The level of a line (R34). -/
def Lines.get (l : Lines) : Line → Bool
  | .data => l.data
  | .clk => l.clk
  | .latch => l.latch
  | .oeN => l.oeN
  | .rstN => l.rstN

/-- The lines with line `L` at level `x` (R34). -/
def Lines.set (l : Lines) (L : Line) (x : Bool) : Lines :=
  match L with
  | .data => { l with data := x }
  | .clk => { l with clk := x }
  | .latch => { l with latch := x }
  | .oeN => { l with oeN := x }
  | .rstN => { l with rstN := x }

end Sys2Proof.Machine
end

