-- ==== Sys2Proof/Machine/External.lean ====
section
/-! DEFINITION. The reference model of the external shift register, agent EXT (41_serial.md R156 to R161): it takes
no step of its own, it reacts to one wire event in the same step. -/

namespace Sys2Proof.Machine

/-- One shift: every stage moves up by one, the top stage is lost, stage 0 takes `d` (R157). -/
def shiftIn (d : Bool) (chain : List (Option Bool)) : List (Option Bool) :=
  (some d :: chain).take displayWidth

/-- The stages of a cleared chain (R159). -/
def zeroChain : List (Option Bool) := List.replicate displayWidth (some false)

/-- The reaction to a wire event made while the lines have the levels `l` (R157 to R159, R161). -/
def Ext.react (l : Lines) (e : Ext) (ev : WireEvent) : Ext :=
  match ev.line, ev.level with
  | .clk, true => if l.clk = false ∧ l.rstN = true then { e with chain := shiftIn l.data e.chain } else e
  | .latch, true => if l.latch = false then { e with out := e.chain } else e
  | .rstN, false => { e with chain := zeroChain }
  | _, _ => e

/-- A register whose every bit holds the bit of `v` (R162). -/
def specified (v : Display) : List (Option Bool) := (List.range displayWidth).map fun i => some (v.getLsbD i)

end Sys2Proof.Machine
end

