-- ==== Sys2Proof/Machine/Flags.lean ====
section
/-! DEFINITION. The flags: what a trigger assigns (40_debounce.md R114), what a pin change sets and the handler
clears (60_exceptions.md R213, R219), and the request line (R216). -/

namespace Sys2Proof.Machine

/-- `trigger(B)`: both edge flags are assigned and the hold countdown is reloaded with `hw` (R114, D23). -/
def trigger (hw : Nat) (B : Button) : Button :=
  { B with risingEdge := B.current, fallingEdge := !B.current, holdCounter := hw }

/-- The pins whose selected transition the change from `old` to `new` makes: 1 to 0 where `sel` is 0, 0 to 1
where it is 1 (R213, R215). -/
def selectedEdges (old new sel : Nibble) : Nibble :=
  (old &&& ~~~new &&& ~~~sel) ||| (~~~old &&& new &&& sel)

/-- The request line `irq` (R216). -/
def irqLine (s : State) : Bool :=
  (lcEn s.intcfg && s.lcPending) || (edgeEn s.intcfg &&& s.edgePending) != 0

end Sys2Proof.Machine
end

