-- ==== Sys2Proof/Machine/Ops.lean ====
section
/-! DEFINITION. The shared operations: the port read, `Wire`, `Delay`, accepting a command, sleep entry, and the
transitions that no command word selects: the interrupt handler, the return from sleep, a pin change, a power
cycle. There is no exception to take (60_exceptions.md R210): the interrupt is the one asynchronous mechanism. -/

namespace Sys2Proof.Machine

/-- `PortRead()`: the four pin levels at the instant of the step (00_scope.md R9). -/
def portRead (s : State) : Nibble := s.pin

/-- `Wire(L) <- x`: sets the line, appends the event, and the external register reacts (R9, R11). -/
def wire (L : Line) (x : Bool) (s : State) : State :=
  { s with
    lines := s.lines.set L x
    ext := s.ext.react s.lines ⟨L, x⟩
    trace := s.trace ++ [⟨L, x⟩] }

/-- `Delay()`: changes no state and appends nothing (R9, 41_serial.md R143). -/
def delay (s : State) : State := s

/-- `cmd_ready` (30_encoding.md R82). -/
def cmdReady (s : State) : Bool := s.gstate == .active && s.seqOp == .idle

/-- Accepting a command in one of the phases `ps` and running `effect`: refused in another phase (R91); held,
without effect, while the block is not ready (R80, R82, log 11). -/
def accepting (ps : List (BitVec 2)) (effect : State → Host.Outcome State Fault Refusal) (s : State) :
    Host.Outcome State Fault Refusal :=
  if cmdReady s then
    if ps.contains s.phase then effect s else .refused (.outOfPhase s.phase)
  else .next s

/-- The phases that accept the commands of the application update (10_state.md R28). -/
def appPhases : List (BitVec 2) := [0, 2]

/-- Sleep entry: outputs disabled, indicators cleared, the sleep request (42_governor.md R184). -/
def sleepEntry (s : State) : State :=
  { wire .oeN true s with status := 0, gstate := .asleep }

/-- The interrupt handler's one step: it acknowledges every flag that is set, enabled or not, and records the
wake if it runs while asleep (60_exceptions.md R219). The port read's value is discarded. -/
def takeInterrupt (s : State) : State :=
  { s with
    lcPending := false
    edgePending := 0
    wakeLatch := if s.gstate = .asleep then true else s.wakeLatch }

/-- RESUME is enabled (42_governor.md R190). -/
def resumeEnabled (s : State) : Bool := s.gstate == .asleep && s.wakeLatch

/-- The sleep request returns: outputs enabled, timer reloaded (R190). -/
def resume (s : State) : State :=
  { wire .oeN false s with
    idleTimer := s.params.idleTimeoutTicks
    gstate := .active
    wakeLatch := false }

/-- PINCHG `p`: sets the pending flags of the change and drives the pins (60_exceptions.md R213). -/
def pinChange (p : Nibble) (s : State) : State :=
  { s with
    edgePending := s.edgePending ||| selectedEdges s.pin p (edgeSel s.intcfg)
    lcPending := true
    pin := p }

/-- POR: every register takes its reset value; the pins are what the outside world drives; the model's own fields
stay (70_reset_and_hazards.md R250, R251, log 4, log 15). -/
def powerCycle (p : Nibble) (s : State) : State :=
  { State.powerOn s.params p with cmds := s.cmds, agenda := s.agenda }

end Sys2Proof.Machine
end

