-- ==== Sys2Proof/Machine/Debounce.lean ====
section
/-! DEFINITION. The debouncer with edge and hold generator: `update` and the meanings of SAMPLE, DEB, CLRR, CLRF
(40_debounce.md). -/

namespace Sys2Proof.Machine

/-- Step 1 of `update`: a changed sample is recorded at once (R112, R113). -/
def recordSample (B : Button) (r : Bool) : Button :=
  if r ≠ B.current then { B with current := r } else B

/-- Step 3 of `update`, for a positive `debounce_counter` (R112). -/
def countDebounce (hw : Nat) (B : Button) : Button :=
  let B' := { B with debounceCounter := B.debounceCounter - 1 }
  if B'.debounceCounter = 0 then trigger hw B' else B'

/-- Step 4 of `update` (R112). It does not test the level (R117, D22). -/
def countHold (hw : Nat) (B : Button) : Button :=
  if 0 < B.holdCounter then
    let B' := { B with holdCounter := B.holdCounter - 1 }
    if B'.holdCounter = 0 then trigger hw B' else B'
  else B

/-- Steps 2 to 4 of `update`: exactly one of the three branches runs (R112). -/
def advance (dw hw : Nat) (B : Button) : Button :=
  if B.current ≠ B.last then { B with debounceCounter := dw, last := B.current }
  else if 0 < B.debounceCounter then countDebounce hw B
  else countHold hw B

/-- `update(B, r)` with `DEBOUNCE_WINDOW = dw` and `HOLD_WINDOW = hw` (R112). -/
def update (dw hw : Nat) (B : Button) (r : Bool) : Button := advance dw hw (recordSample B r)

/-- `update` on all four records with the samples `raw` (R118). -/
def updateAll (p : Params) (f : Buttons) (raw : Nibble) : Buttons :=
  let u (b : ButtonId) := update p.debounceWindow p.holdWindow (f.get b) (buttonBit raw b)
  ⟨u .red, u .green, u .blue, u .key⟩

/-- SAMPLE: the pins are read into `raw`; no pending flag is touched (R110, D18). -/
def execSample (s : State) : Host.Outcome State Fault Refusal :=
  accepting [0] (fun s => .next { s with raw := pressed (portRead s), phase := 1 }) s

/-- DEB: `update` on all four buttons (R118). -/
def execDeb (s : State) : Host.Outcome State Fault Refusal :=
  accepting [1] (fun s => .next { s with btn := updateAll s.params s.btn s.raw, phase := 2 }) s

/-- CLRR `b`: clears `rising_edge` and nothing else (R121). -/
def execClrr (b : ButtonId) (s : State) : Host.Outcome State Fault Refusal :=
  accepting appPhases (fun s => .next { s with btn := s.btn.set b { s.btn.get b with risingEdge := false } }) s

/-- CLRF `b`: clears `falling_edge` and nothing else (R122). -/
def execClrf (b : ButtonId) (s : State) : Host.Outcome State Fault Refusal :=
  accepting appPhases (fun s => .next { s with btn := s.btn.set b { s.btn.get b with fallingEdge := false } }) s

end Sys2Proof.Machine
end

