-- ==== Sys2Proof/Machine/Governor.lean ====
section
/-! DEFINITION. The idle-timeout power governor: the meanings of GOV, STATUS and CFGINT (42_governor.md). -/

namespace Sys2Proof.Machine

/-- The tick of a GOV with `is_active = 0`: decrement, and sleep entry when the timer reaches zero. At zero the
step is refused and does not wrap (R183, R184, U5). -/
def idleTick (s : State) : Host.Outcome State Fault Refusal :=
  match s.idleTimer with
  | 0 => .refused .idleUnderflow
  | k + 1 =>
    let s' := { s with idleTimer := k }
    .next { (if k = 0 then sleepEntry s' else s') with phase := 0 }

/-- GOV `f`: reload on activity, else the idle tick (R183). -/
def execGov (f : Bool) (s : State) : Host.Outcome State Fault Refusal :=
  accepting [2]
    (fun s => if f then .next { s with idleTimer := s.params.idleTimeoutTicks, phase := 0 } else idleTick s) s

/-- STATUS `s`: writes the four indicators (R192). -/
def execStatus (v : Nibble) (s : State) : Host.Outcome State Fault Refusal :=
  accepting appPhases (fun s => .next { s with status := v }) s

/-- CFGINT `c`: writes `INTCFG`; no pending flag is set or cleared (R193). -/
def execCfgint (c : IntCfg) (s : State) : Host.Outcome State Fault Refusal :=
  accepting appPhases (fun s => .next { s with intcfg := c }) s

end Sys2Proof.Machine
end

