-- ==== Sys2Proof/Machine/Serial.lean ====
section
/-! DEFINITION. The serial driver: the meanings of OE, SRRST, WRITE, the micro-step table, and what a stretch of the
wire history shows (41_serial.md). -/

namespace Sys2Proof.Machine

/-- OE `f`: one wire event, `OE_N = NOT enabled` (R140, 30_encoding.md R93). -/
def execOe (f : Bool) (s : State) : Host.Outcome State Fault Refusal :=
  accepting appPhases (fun s => .next (wire .oeN (!f) s)) s

/-- SRRST: loads the sequencer; no wire event in this step (R141, R145). -/
def execSrrst (s : State) : Host.Outcome State Fault Refusal :=
  accepting appPhases (fun s => .next { s with seqOp := .srrst, seqStep := 0 }) s

/-- WRITE `v`: loads the sequencer with the word and the top bit index; no wire event in this step (R142, R145). -/
def execWrite (v : Display) (s : State) : Host.Outcome State Fault Refusal :=
  accepting appPhases (fun s => .next { s with seqOp := .write, seqVal := v, seqI := 16, seqStep := 0 }) s

/-- The rows WRITE 0 to 8 of the micro-step table (R146). -/
def writeRow (s : State) : Host.Outcome State Fault Refusal :=
  match s.seqStep.toNat with
  | 0 =>
    if s.seqI.toNat < displayWidth then
      .next { wire .data (displayBit s.seqVal s.seqI) s with seqStep := 1 }
    else .refused .noMicroStep
  | 1 => .next { wire .clk true s with seqStep := 2 }
  | 2 => .next { delay s with seqStep := 3 }
  | 3 => .next { wire .clk false s with seqStep := 4 }
  | 4 =>
    if s.seqI = 0 then .next { delay s with seqStep := 5 }
    else .next { delay s with seqI := s.seqI - 1, seqStep := 0 }
  | 5 => .next { wire .latch true s with seqStep := 6 }
  | 6 => .next { delay s with seqStep := 7 }
  | 7 => .next { wire .latch false s with seqStep := 8 }
  | 8 => .next { delay s with seqOp := .idle, seqStep := 0, seqI := 0 }
  | _ => .refused .noMicroStep

/-- The rows SRRST 0 to 2 of the micro-step table (R146). -/
def srrstRow (s : State) : Host.Outcome State Fault Refusal :=
  match s.seqStep.toNat with
  | 0 => .next { wire .rstN false s with seqStep := 1 }
  | 1 => .next { delay s with seqStep := 2 }
  | 2 => .next { wire .rstN true s with seqOp := .idle, seqStep := 0 }
  | _ => .refused .noMicroStep

/-- USTEP: the row that `(seq_op, seq_step)` selects; while IDLE it is not enabled and nothing happens
(R147, log 12). -/
def ustep (s : State) : Host.Outcome State Fault Refusal :=
  match s.seqOp with
  | .idle => .next s
  | .write => writeRow s
  | .srrst => srrstRow s

/-- `n` micro-steps in a row: how a WRITE or SRRST runs to its end when nothing falls between its micro-steps
(R146, R149). -/
def usteps : Nat → State → Host.Outcome State Fault Refusal
  | 0, s => .next s
  | n + 1, s =>
    match ustep s with
    | .next t => usteps n t
    | .fault e => .fault e
    | .refused e => .refused e

/-- The three wire events of one bit of a WRITE (R142, R149). -/
def bitEvents (x : Bool) : List WireEvent := [⟨.data, x⟩, ⟨.clk, true⟩, ⟨.clk, false⟩]

/-- `events(v)`: the wire events of WRITE `v` in order, most significant bit first (R149). -/
def writeEvents (v : Display) : List WireEvent :=
  ((List.range displayWidth).reverse.flatMap fun i => bitEvents (v.getLsbD i))
    ++ [⟨.latch, true⟩, ⟨.latch, false⟩]

/-- The wire events of SRRST in order (R149). -/
def srrstEvents : List WireEvent := [⟨.rstN, false⟩, ⟨.rstN, true⟩]

/-- `bits_seen` of a stretch of the wire history that starts with DATA at level `d`: the DATA level in force at
each `(CLK,1)` event, in order (R153, log 19). -/
def bitsSeen (d : Bool) : List WireEvent → List Bool
  | [] => []
  | ev :: evs =>
    match ev.line, ev.level with
    | .data, x => bitsSeen x evs
    | .clk, true => d :: bitsSeen d evs
    | _, _ => bitsSeen d evs

/-- The lines and the external register that a wire history leaves, from their state at power-on: EXT is a
function of the wire events (00_scope.md R11, R156). -/
def replay : List WireEvent → Lines × Ext → Lines × Ext
  | [], p => p
  | ev :: evs, p => replay evs (p.1.set ev.line ev.level, p.2.react p.1 ev)

end Sys2Proof.Machine
end

