-- ==== Sys2Proof/Machine/Dispatch.lean ====
section
/-! DEFINITION. One arm per command, each a call of its meaning (30_encoding.md R89). -/

namespace Sys2Proof.Machine

def exec (i : Instr) (s : State) : Host.Outcome State Fault Refusal :=
  match i with
  | .sample => Sys2Proof.Machine.execSample s
  | .deb => Sys2Proof.Machine.execDeb s
  | .clrr b => Sys2Proof.Machine.execClrr b s
  | .clrf b => Sys2Proof.Machine.execClrf b s
  | .oe f => Sys2Proof.Machine.execOe f s
  | .srrst => Sys2Proof.Machine.execSrrst s
  | .write v => Sys2Proof.Machine.execWrite v s
  | .status v => Sys2Proof.Machine.execStatus v s
  | .gov f => Sys2Proof.Machine.execGov f s
  | .cfgint c => Sys2Proof.Machine.execCfgint c s

end Sys2Proof.Machine
end

