-- ==== Sys2Proof/Machine/Ports.lean ====
section
/-! DEFINITION. The output ports, functions of the state that hold none of their own (10_state.md R38), and the
visible output of the external register (41_serial.md R160). `irq` is `irqLine`, `cmd_ready` is `cmdReady`. -/

namespace Sys2Proof.Machine

/-- Output port `rise[3:0]` (R38). -/
def rise (s : State) : Nibble := buttonVector fun b => (s.btn.get b).risingEdge

/-- Output port `fall[3:0]` (R38). -/
def fall (s : State) : Nibble := buttonVector fun b => (s.btn.get b).fallingEdge

/-- Output port `cur[3:0]`, 1 = pressed (R38, D26). -/
def cur (s : State) : Nibble := buttonVector fun b => (s.btn.get b).current

/-- Output port `asleep` (R33). -/
def asleep (s : State) : Bool := s.gstate == .asleep

/-- `cmd_valid`: the host presents a word (30_encoding.md R80, log 3). -/
def cmdValid (s : State) : Bool := !s.cmds.isEmpty

/-- A WRITE is between its first clock edge and its latch edge (93_implementation_defined.md U3). -/
def shifting (s : State) : Bool :=
  s.seqOp == .write && decide (s.seqStep.toNat ≤ 5)
    && (decide (s.seqI.toNat < 16) || decide (2 ≤ s.seqStep.toNat))

/-- What LED `i` shows: `some true` on, `some false` dark, `none` no value. Dark while the outputs are disabled,
else the latched bit; no value in the stretch of U3 (R160, log 10). -/
def led (s : State) (i : Nat) : Option Bool :=
  if s.lines.oeN then some false
  else if shifting s then none
  else (s.ext.out[i]?).join

end Sys2Proof.Machine
end

