-- ==== Sys2Proof/Machine/Turns.lean ====
section
/-! DEFINITION. The transitions of the agents (00_scope.md R11, 30_encoding.md R92) as turns, which turn is next, and
the presentation of a command by the host. Step.lean only calls these. -/

namespace Sys2Proof.Machine

/-- MAIN accepts the presented word if it is ready: the word leaves the port and its command runs; a reserved word
is refused (30_encoding.md R80, R90). A word that is held stays presented (R82). -/
def takeCommand (s : State) : Host.Outcome State Fault Refusal :=
  if cmdReady s then
    match s.cmds with
    | [] => .next s
    | w :: ws =>
      match decode w with
      | .instr i => exec i { s with cmds := ws }
      | .reserved why => .refused (.reservedWord why)
  else .next s

/-- One transition. One that is not enabled does not happen: the turn passes and nothing else (R92, log 12). -/
def takeTurn (t : Turn) (s : State) : Host.Outcome State Fault Refusal :=
  match t with
  | .command => takeCommand s
  | .ustep => ustep s
  | .resume => .next (if resumeEnabled s then resume s else s)
  | .irq => .next (if irqLine s then takeInterrupt s else s)
  | .pinchg p => .next (if p = s.pin then s else pinChange p s)
  | .por p => .next (powerCycle p s)

/-- With nothing on the agenda, the enabled step of the block that is taken: the handler, then MAIN's. So every
enabled step of R231 is taken, and no outside event comes (log 2). -/
def fairTurn (s : State) : Option Turn :=
  if irqLine s then some .irq
  else if s.seqOp ≠ .idle then some .ustep
  else if resumeEnabled s then some .resume
  else if cmdReady s && cmdValid s then some .command
  else none

/-- The next step: the head of the agenda, or the block's own enabled step, or none (R69, log 1, log 2). With no
enabled step the block waits, unchanged (60_exceptions.md R230, U7). -/
def nextStep (s : State) : Host.Outcome State Fault Refusal :=
  match s.agenda with
  | t :: ts => takeTurn t { s with agenda := ts }
  | [] =>
    match fairTurn s with
    | some t => takeTurn t s
    | none => .next s

/-- A phase that accepts the command, the present one if it does (10_state.md R28): where `present` has the host
present it (log 13). -/
def acceptingPhase (i : Instr) (p : BitVec 2) : BitVec 2 :=
  if i.acceptedIn p then p
  else
    match i with
    | .sample => 0
    | .deb => 1
    | .clrr _ | .clrf _ | .oe _ | .srrst | .write _ | .status _ | .gov _ | .cfgint _ => 2

/-- The word `w` presented to a ready block, as the very next step, in a phase that accepts it (log 13). -/
def present (w : CmdWord) (s : State) : State :=
  { s with
    cmds := w :: s.cmds
    agenda := .command :: s.agenda
    gstate := .active
    seqOp := .idle
    phase :=
      match decode w with
      | .instr i => acceptingPhase i s.phase
      | .reserved _ => s.phase }

end Sys2Proof.Machine
end

