-- ==== Sys2Proof/Machine/Step.lean ====
section
/-! DEFINITION. One step of the machine, and a command placed where the next step takes it. -/

namespace Sys2Proof.Machine

/-- One step of one agent (20_memory.md R69). -/
def step (s : State) : Host.Outcome State Fault Refusal := nextStep s

/-- `s` with the command word `w` as the one the very next step takes (log 13, log 14). -/
def State.withFetchWord (s : State) (_nbits w : Nat) : State := present (wordOfNat w) s

end Sys2Proof.Machine
end

