-- ==== Sys2Proof/Machine/Programs.lean ====
section
/-! DEFINITION. Sequences of commands: the pseudo-instructions (30_encoding.md R96), one iteration (42_governor.md
R196), and running a sequence with nothing between its steps. -/

namespace Sys2Proof.Machine

/-- The pseudo-instructions of R96. -/
inductive Pseudo where
  | update (v : Display)
  | startup
  | tick
deriving DecidableEq, Repr

/-- The expansion of a pseudo-instruction (R96, 70_reset_and_hazards.md R253). -/
def expand : Pseudo → List Instr
  | .update v => [.oe false, .write v, .oe true]
  | .startup => [.srrst, .write 0, .oe true]
  | .tick => [.sample, .deb]

/-- The number of micro-steps a command loads: `5W + 4` for WRITE, 3 for SRRST (41_serial.md R146). -/
def microSteps : Instr → Nat
  | .write _ => 5 * displayWidth + 4
  | .srrst => 3
  | .sample | .deb | .clrr _ | .clrf _ | .oe _ | .status _ | .gov _ | .cfgint _ => 0

/-- A command and all its micro-steps, nothing falling between them (R149). -/
def runWhole (i : Instr) (s : State) : Host.Outcome State Fault Refusal :=
  match exec i s with
  | .next t => usteps (microSteps i) t
  | .fault e => .fault e
  | .refused e => .refused e

/-- The commands of a list in order, each run whole (20_memory.md R70). -/
def runProgram : List Instr → State → Host.Outcome State Fault Refusal
  | [], s => .next s
  | i :: is, s =>
    match runWhole i s with
    | .next t => runProgram is t
    | .fault e => .fault e
    | .refused e => .refused e

/-- One iteration without application commands: SAMPLE, DEB, GOV `f` (R196). -/
def iteration (f : Bool) : List Instr := expand .tick ++ [.gov f]

/-- The records a list of samples leaves, one `update` a tick (40_debounce.md R112). -/
def updates (dw hw : Nat) (rs : List Bool) (B : Button) : Button := rs.foldl (update dw hw) B

end Sys2Proof.Machine
end

