-- ==== Sys2Proof/Machine/Assembler.lean ====
section
/-! DEFINITION. The assembler syntax of 30_encoding.md R95: printing a line, reading a line, and placing a listing so
that the steps that follow run it. Text is a list of characters; log 18 says what R95 leaves open. -/

namespace Sys2Proof.Machine

/-- One item of a listing: a command, or an unencoded transition in square brackets (R95). -/
inductive Item where
  | command (i : Instr)
  | turn (t : Turn)
deriving DecidableEq, Repr

/-! ### Printing -/

/-- A hexadecimal digit, a capital from ten on as in R95's example: the digits start at code 0x30, the capitals at
0x41. -/
def hexDigit (d : BitVec 4) : Char := Char.ofNat (d.toNat + if d.toNat < 10 then 0x30 else 0x37)

/-- A flag as `0` or `1`. -/
def flagChar (f : Bool) : Char := if f then '1' else '0'

/-- Four binary digits after `0b`, key first to red last (R95). -/
def binText (v : Nibble) : List Char :=
  ['0', 'b', flagChar (v.getLsbD 3), flagChar (v.getLsbD 2), flagChar (v.getLsbD 1), flagChar (v.getLsbD 0)]

/-- Five hexadecimal digits after `0x` (R95). -/
def displayText (v : Display) : List Char :=
  ['0', 'x', hexDigit (v.extractLsb' 16 4), hexDigit (v.extractLsb' 12 4), hexDigit (v.extractLsb' 8 4),
    hexDigit (v.extractLsb' 4 4), hexDigit (v.extractLsb' 0 4)]

/-- A command word as a six-digit hexadecimal number (R95). -/
def wordText (c : CmdWord) : List Char :=
  ['0', 'x', hexDigit (c.extractLsb' 20 4), hexDigit (c.extractLsb' 16 4), hexDigit (c.extractLsb' 12 4),
    hexDigit (c.extractLsb' 8 4), hexDigit (c.extractLsb' 4 4), hexDigit (c.extractLsb' 0 4)]

/-- The name of a button (R62). -/
def buttonText : ButtonId → List Char
  | .red => ['r', 'e', 'd']
  | .green => ['g', 'r', 'e', 'e', 'n']
  | .blue => ['b', 'l', 'u', 'e']
  | .key => ['k', 'e', 'y']

/-- The tokens of a command: the mnemonic in capitals, then the operand (R95). -/
def commandTokens : Instr → List (List Char)
  | .sample => [['S', 'A', 'M', 'P', 'L', 'E']]
  | .deb => [['D', 'E', 'B']]
  | .clrr b => [['C', 'L', 'R', 'R'], buttonText b]
  | .clrf b => [['C', 'L', 'R', 'F'], buttonText b]
  | .oe f => [['O', 'E'], [flagChar f]]
  | .srrst => [['S', 'R', 'R', 'S', 'T']]
  | .write v => [['W', 'R', 'I', 'T', 'E'], displayText v]
  | .status s => [['S', 'T', 'A', 'T', 'U', 'S'], binText s]
  | .gov f => [['G', 'O', 'V'], [flagChar f]]
  | .cfgint c =>
    [['C', 'F', 'G', 'I', 'N', 'T'], ['l', 'c', '=', flagChar (lcEn c)], ['e', 'n', '='] ++ binText (edgeEn c),
      ['s', 'e', 'l', '='] ++ binText (edgeSel c)]

/-- One command as a line (R95). -/
def commandText (i : Instr) : List Char := [' '].intercalate (commandTokens i)

/-! ### Reading -/

/-- The value of a hexadecimal digit, in either case: the one whose printed digit it is (log 18). -/
def hexValue (c : Char) : Option Nat := (List.range 16).find? fun d => hexDigit (BitVec.ofNat 4 d) == c.toUpper

/-- The value of a string of hexadecimal digits, the leading one worth most. -/
def hexNumber : List Char → Option Nat
  | [] => some 0
  | c :: cs =>
    match hexValue c, hexNumber cs with
    | some d, some n => some (d * 16 ^ cs.length + n)
    | _, _ => none

/-- A display word: `0x` and one to five digits, within the word (R95). -/
def readDisplay : List Char → Option Display
  | '0' :: 'x' :: d :: ds =>
    if ds.length ≤ 4 then
      (hexNumber (d :: ds)).bind fun n => if n < 2 ^ displayWidth then some (BitVec.ofNat 17 n) else none
    else none
  | _ => none

/-- A flag (R95). -/
def readFlag : List Char → Option Bool
  | ['0'] => some false
  | ['1'] => some true
  | _ => none

/-- One binary digit. -/
def readBit (c : Char) : Option Bool := readFlag [c]

/-- `0b` and four binary digits, bit 3 first (R95). -/
def readNibble : List Char → Option Nibble
  | ['0', 'b', k, b, g, r] =>
    match readBit k, readBit b, readBit g, readBit r with
    | some k, some b, some g, some r =>
      some (nibbleOf k b g r)
    | _, _, _, _ => none
  | _ => none

/-- A button as a name or a number (R95). -/
def readButton : List Char → Option ButtonId
  | ['0'] => some .red
  | ['1'] => some .green
  | ['2'] => some .blue
  | ['3'] => some .key
  | ['r', 'e', 'd'] => some .red
  | ['g', 'r', 'e', 'e', 'n'] => some .green
  | ['b', 'l', 'u', 'e'] => some .blue
  | ['k', 'e', 'y'] => some .key
  | _ => none

/-- The three fields of a CFGINT operand (R95, R88). -/
def readIntCfg : List (List Char) → Option IntCfg
  | [['l', 'c', '=', l], 'e' :: 'n' :: '=' :: en, 's' :: 'e' :: 'l' :: '=' :: sel] =>
    match readBit l, readNibble en, readNibble sel with
    | some l, some en, some sel => some (intCfgOf l en sel)
    | _, _, _ => none
  | _ => none

/-- The command a list of tokens spells. -/
def readCommand : List (List Char) → Option Instr
  | [['S', 'A', 'M', 'P', 'L', 'E']] => some .sample
  | [['D', 'E', 'B']] => some .deb
  | [['C', 'L', 'R', 'R'], b] => (readButton b).map .clrr
  | [['C', 'L', 'R', 'F'], b] => (readButton b).map .clrf
  | [['O', 'E'], f] => (readFlag f).map .oe
  | [['S', 'R', 'R', 'S', 'T']] => some .srrst
  | [['W', 'R', 'I', 'T', 'E'], v] => (readDisplay v).map .write
  | [['S', 'T', 'A', 'T', 'U', 'S'], s] => (readNibble s).map .status
  | [['G', 'O', 'V'], f] => (readFlag f).map .gov
  | ['C', 'F', 'G', 'I', 'N', 'T'] :: c => (readIntCfg c).map .cfgint
  | _ => none

/-- The pseudo-instruction a list of tokens spells (R96). -/
def readPseudo : List (List Char) → Option Pseudo
  | [['U', 'P', 'D', 'A', 'T', 'E'], v] => (readDisplay v).map .update
  | [['S', 'T', 'A', 'R', 'T', 'U', 'P']] => some .startup
  | [['T', 'I', 'C', 'K']] => some .tick
  | _ => none

/-- The transition a bracketed list of tokens spells (R95); `[POR]` leaves no button pressed (log 18). -/
def readTurn : List (List Char) → Option Turn
  | [['['], ['P', 'I', 'N', 'C', 'H', 'G'], p, [']']] => (readNibble p).map .pinchg
  | [['['], ['I', 'R', 'Q'], [']']] => some .irq
  | [['['], ['R', 'E', 'S', 'U', 'M', 'E'], [']']] => some .resume
  | [['['], ['P', 'O', 'R'], [']']] => some (.por 0b1111)
  | _ => none

/-- The tokens of a line: split at blanks, brackets stand alone, `;` starts a comment (R95, log 18). `acc` is the
token being read. -/
def tokenize : List Char → List Char → List (List Char)
  | [], acc => if acc.isEmpty then [] else [acc]
  | c :: cs, acc =>
    let done := if acc.isEmpty then [] else [acc]
    if c = ';' then done
    else if c = ' ' then done ++ tokenize cs []
    else if c = '[' ∨ c = ']' then done ++ [c] :: tokenize cs []
    else tokenize cs (acc ++ [c])

/-- The items of one line: none for an empty line, several for a pseudo-instruction, `none` for a line that is
neither a command, a pseudo-instruction nor a bracketed transition (R95, R96). -/
def readLine (line : List Char) : Option (List Item) :=
  let ts := tokenize line []
  if ts.isEmpty then some []
  else
    match readCommand ts, readPseudo ts, readTurn ts with
    | some i, _, _ => some [.command i]
    | none, some p, _ => some ((expand p).map .command)
    | none, none, some t => some [.turn t]
    | none, none, none => none

/-! ### Placing a listing -/

/-- The transitions one item stands for: "a WRITE or SRRST line stands for the command and all its micro-steps"
(R95). -/
def Item.turns : Item → List Turn
  | .command i => .command :: List.replicate (microSteps i) .ustep
  | .turn t => [t]

/-- The words one item presents. -/
def Item.words : Item → List CmdWord
  | .command i => [encode i]
  | .turn _ => []

/-- The state whose next steps run the listing (log 13). -/
def place (items : List Item) (s : State) : State :=
  { s with
    cmds := s.cmds ++ items.flatMap Item.words
    agenda := s.agenda ++ items.flatMap Item.turns }

end Sys2Proof.Machine
end

