-- ==== Sys2Proof/Safety.lean ====
section
/-! DEFINITION. What counts as a safe run, in the terms the statements use: the invariants of the spec, the quiescent
points, the hung states, the conceptual states of a button. -/

namespace Sys2Proof.Machine

/-- A record keeps R27 and R128 (never both flags), R123 (`last = current`) and the ranges of R23 and R24. -/
structure Button.Inv (p : Params) (B : Button) : Prop where
  last_eq : B.last = B.current
  exclusive : ¬(B.risingEdge = true ∧ B.fallingEdge = true)
  debounce_le : B.debounceCounter ≤ p.debounceWindow
  hold_le : B.holdCounter ≤ p.holdWindow

/-- Every record of the file keeps its invariant. -/
def ButtonsInv (s : State) : Prop := ∀ b, (s.btn.get b).Inv s.params

/-- The lines at each point of a sequence: idle as R150 says while `seq_op = IDLE`, and in a sequence the level
the micro-step table has driven (41_serial.md R146, R150). -/
def LinesInv (s : State) : Prop :=
  match s.seqOp with
  | .idle => s.lines.clk = false ∧ s.lines.latch = false ∧ s.lines.rstN = true
  | .write =>
    s.lines.rstN = true ∧ s.seqStep.toNat ≤ 8 ∧ s.seqI.toNat < displayWidth ∧ (5 ≤ s.seqStep.toNat → s.seqI = 0)
      ∧ (s.lines.clk = true ↔ s.seqStep.toNat = 2 ∨ s.seqStep.toNat = 3)
      ∧ (s.lines.latch = true ↔ s.seqStep.toNat = 6 ∨ s.seqStep.toNat = 7)
  | .srrst =>
    s.lines.clk = false ∧ s.lines.latch = false ∧ s.seqStep.toNat ≤ 2
      ∧ (s.lines.rstN = true ↔ s.seqStep.toNat = 0)

/-- The governor: the range of R187, a sequence only while Active (R147), asleep between iterations with the
display dark and the indicators clear (R184, R228), the wake recorded only while asleep (R40). -/
structure GovernorInv (s : State) : Prop where
  timeout_pos : 1 ≤ s.params.idleTimeoutTicks
  phase_ne : s.phase ≠ 3
  awake : s.gstate = .active → 1 ≤ s.idleTimer ∧ s.idleTimer ≤ s.params.idleTimeoutTicks ∧ s.wakeLatch = false
  sleeping : s.gstate = .asleep →
    s.idleTimer = 0 ∧ s.seqOp = .idle ∧ s.phase = 0 ∧ s.lines.oeN = true ∧ s.status = 0

/-- The lines and the external register are what the wire history makes of their state at power-on: EXT is a
function of the wire events (00_scope.md R11). -/
def HistoryInv (s : State) : Prop := (s.lines, s.ext) = replay s.trace (.reset, .unspecified)

/-- The external register has `W` stages and `W` outputs (R156). -/
def ExtInv (s : State) : Prop := s.ext.chain.length = displayWidth ∧ s.ext.out.length = displayWidth

/-- No source is enabled (42_governor.md R194). -/
def noWakeSource (s : State) : Prop := lcEn s.intcfg = false ∧ edgeEn s.intcfg = 0

/-- Asleep with no wake source enabled and no wake recorded: the block "sleeps forever" (R194, R230). -/
def Hung (s : State) : Prop :=
  s.gstate = .asleep ∧ s.seqOp = .idle ∧ s.wakeLatch = false ∧ noWakeSource s

/-- The quiescent points at which a run may be cut (00_scope.md R13). DESIGN CHOICE (log 20): R13's words for the
asleep ones are "`gstate = Asleep` and `irq = 0`", and its gloss adds that no step of MAIN is enabled. The two differ
when the handler has run and RESUME has not (`wake_latch = 1`, 42_governor.md R190), and the model takes the first. -/
def Quiescent (s : State) : Prop :=
  (s.phase = 0 ∧ s.seqOp = .idle ∧ s.gstate = .active) ∨ (s.gstate = .asleep ∧ irqLine s = false)

/-- The conceptual states of a button (40_debounce.md R119). -/
inductive Conceptual where
  | idle | debouncing | holdCountdown
deriving DecidableEq, Repr

/-- The conceptual state a record is in (R119). -/
def Button.conceptual (B : Button) : Conceptual :=
  if 0 < B.debounceCounter then .debouncing else if 0 < B.holdCounter then .holdCountdown else .idle

/-- The phases that accept a command are those of R28's table, and the command's own conditions hold: the state
and operand conditions under which a command completes (R82, R91, U5). -/
def completes (i : Instr) (s : State) : Prop :=
  cmdReady s = true ∧ i.acceptedIn s.phase = true ∧ (i = .gov false → 1 ≤ s.idleTimer)

end Sys2Proof.Machine
end

