-- ==== Sys2Proof/Certificates/Slice0/Obligations.lean ====
section
/-! DEFINITION. The statements for the provers. Each docstring names the rule or section it comes from. A statement whose
conclusion writes the whole next state as the old one with named fields changed says the command's frame as well:
every field it does not name is unchanged. There is no memory to say anything about (20_memory.md R60). -/

open Sys2Proof Sys2Proof.Machine

/-! ### Encoding (30_encoding.md) -/

/-- The word of any command, with every operand at every value, decodes to that command. -/
def Obligations.DecodeOfEncodeIsTheCommand : Prop := ∀ i : Instr, decode (encode i) = .instr i

/-- A word that decodes to a command is that command's word: no two words mean the same. -/
def Obligations.EncodeOfDecodeIsTheWord : Prop := ∀ (c : CmdWord) (i : Instr), decode c = .instr i → encode i = c

/-- R89: match and mask of the ten rows, and the column "accepted in phase". -/
def Obligations.WordIsTheCommandOfItsRow : Prop :=
  ∀ c : CmdWord,
    (c &&& 0x1FFFFF = 0x020000 ↔ decode c = .instr .sample) ∧
    (c &&& 0x1FFFFF = 0x040000 ↔ decode c = .instr .deb) ∧
    (c &&& 0x1FFFFC = 0x060000 ↔ ∃ b, decode c = .instr (.clrr b)) ∧
    (c &&& 0x1FFFFC = 0x080000 ↔ ∃ b, decode c = .instr (.clrf b)) ∧
    (c &&& 0x1FFFFE = 0x0A0000 ↔ ∃ f, decode c = .instr (.oe f)) ∧
    (c &&& 0x1FFFFF = 0x0C0000 ↔ decode c = .instr .srrst) ∧
    (c &&& 0x1E0000 = 0x0E0000 ↔ ∃ v, decode c = .instr (.write v)) ∧
    (c &&& 0x1FFFF0 = 0x100000 ↔ ∃ s, decode c = .instr (.status s)) ∧
    (c &&& 0x1FFFFE = 0x120000 ↔ ∃ f, decode c = .instr (.gov f)) ∧
    (c &&& 0x1FFE00 = 0x140000 ↔ ∃ x, decode c = .instr (.cfgint x)) ∧
    (∀ (i : Instr) (s : State), decode c = .instr i → cmdReady s = true →
      (exec i s = .refused (.outOfPhase s.phase) ↔
        ¬(match i with
          | .sample => s.phase = 0
          | .deb => s.phase = 1
          | .gov _ => s.phase = 2
          | .clrr _ | .clrf _ | .oe _ | .srrst | .write _ | .status _ | .cfgint _ => s.phase = 0 ∨ s.phase = 2)))

/-- R90: opcodes 0x0 and 0xB to 0xF are reserved, a word that matches no row is reserved, and a ready block that is
presented a reserved word refuses it. -/
def Obligations.ReservedWordIsRefused : Prop :=
  ∀ c : CmdWord,
    (((c >>> 17).toNat = 0 ∨ 0xB ≤ (c >>> 17).toNat) → decode c = .reserved .opcode) ∧
    ((∀ i, encode i ≠ c) → ∃ why, decode c = .reserved why) ∧
    (∀ why (s : State) (ws : List CmdWord), decode c = .reserved why → cmdReady s = true → s.cmds = c :: ws →
      takeTurn .command s = .refused (.reservedWord why))

/-- A few words, written out bit by bit from the formats, beside the nearest words that decode differently
(95_test_vectors.md V-E1). -/
def Obligations.SpecWordsDecode : Prop :=
  decode 0b000100000000000000000 = .instr .sample ∧ decode 0b000100000000000000001 = .reserved .mustBeZero ∧
  decode 0b001000000000000000000 = .instr .deb ∧
  decode 0b001100000000000000011 = .instr (.clrr .key) ∧ decode 0b001100000000000000100 = .reserved .mustBeZero ∧
  decode 0b010000000000000000010 = .instr (.clrf .blue) ∧
  decode 0b010100000000000000001 = .instr (.oe true) ∧ decode 0b010100000000000000010 = .reserved .mustBeZero ∧
  decode 0b011000000000000000000 = .instr .srrst ∧
  decode 0b011111010101111001101 = .instr (.write 0x1ABCD) ∧
  decode 0b100000000000000000101 = .instr (.status 0b0101) ∧
  decode 0b100100000000000000001 = .instr (.gov true) ∧
  decode 0b101000000000100010000 = .instr (.cfgint 0x110) ∧ decode 0b101000000001000000000 = .reserved .mustBeZero ∧
  decode 0 = .reserved .opcode ∧ decode 0b101100000000000000000 = .reserved .opcode

/-- Printing a command and reading the line back gives the command (R95). -/
def Obligations.AssemblerReadsWhatItPrints : Prop :=
  ∀ i : Instr, readLine (commandText i) = some [.command i]

/-! ### A step and its agents -/

/-- When the turn is the command's and the presented word decodes to `i`, the step is `exec i` on the state from which
the turn and the word are taken (R80, R89). The same with an empty agenda when nothing of R231 is enabled. -/
def Obligations.StepRunsTheDecodedCommand : Prop :=
  ∀ (s : State) (w : CmdWord) (ws : List CmdWord) (i : Instr), cmdReady s = true → s.cmds = w :: ws →
    decode w = .instr i →
    (∀ us, s.agenda = .command :: us → step s = exec i { s with agenda := us, cmds := ws }) ∧
    (s.agenda = [] → irqLine s = false → step s = exec i { s with cmds := ws })

/-- The model's choice (log 1): a step with a turn on the agenda takes it, on the state from which it is taken. So what
is stated of `takeTurn` is what steps do. -/
def Obligations.StepTakesTheTurnOfTheAgenda : Prop :=
  ∀ (s : State) (u : Turn) (us : List Turn), s.agenda = u :: us → step s = takeTurn u { s with agenda := us }

/-- A command that is not accepted yet has no effect and stays presented (R80, R82). The model's choice (log 11): it
answers the unchanged state, and its turn passes. -/
def Obligations.CommandIsHeldUntilReady : Prop :=
  ∀ s : State, (cmdReady s = true ↔ s.gstate = .active ∧ s.seqOp = .idle) ∧
    (cmdReady s = false → (∀ i, exec i s = .next s) ∧
      (∀ us, s.agenda = .command :: us → step s = .next { s with agenda := us }))

/-- R91: the refusals, each beside the accepted case. -/
def Obligations.OutOfPhaseCommandIsRefused : Prop :=
  ∀ s : State, cmdReady s = true →
    ((s.phase = 1 ∨ s.phase = 2) → exec .sample s = .refused (.outOfPhase s.phase)) ∧
    ((s.phase = 0 ∨ s.phase = 2) → exec .deb s = .refused (.outOfPhase s.phase)) ∧
    ((s.phase = 0 ∨ s.phase = 1) → ∀ f, exec (.gov f) s = .refused (.outOfPhase s.phase)) ∧
    (s.phase = 1 →
      (∀ b, exec (.clrr b) s = .refused (.outOfPhase 1)) ∧ (∀ b, exec (.clrf b) s = .refused (.outOfPhase 1)) ∧
      (∀ f, exec (.oe f) s = .refused (.outOfPhase 1)) ∧ exec .srrst s = .refused (.outOfPhase 1) ∧
      (∀ v, exec (.write v) s = .refused (.outOfPhase 1)) ∧ (∀ v, exec (.status v) s = .refused (.outOfPhase 1)) ∧
      (∀ c, exec (.cfgint c) s = .refused (.outOfPhase 1))) ∧
    (∀ i : Instr, i.acceptedIn s.phase = true → ∀ p, exec i s ≠ .refused (.outOfPhase p))

/-- R28: the table's columns "commands accepted" and "next", row by row; a command in another phase is refused; USTEP,
RESUME, IRQ and PINCHG leave the phase; it is 0 after POR. Every accepted command completes: a `GOV 0` on a timer at zero
is the one that does not (93_implementation_defined.md U5), and `completes` shuts it out. -/
def Obligations.AcceptedCommandsCompleteAndMoveThePhase : Prop :=
  (∀ (i : Instr) (p : BitVec 2), i.acceptedIn p = true ↔
    match i with
    | .sample => p = 0
    | .deb => p = 1
    | .gov _ => p = 2
    | .clrr _ | .clrf _ | .oe _ | .srrst | .write _ | .status _ | .cfgint _ => p = 0 ∨ p = 2) ∧
  (∀ (i : Instr) (s : State), completes i s → ∃ t, exec i s = .next t ∧ t.phase =
    match i with
    | .sample => 1
    | .deb => 2
    | .gov _ => 0
    | .clrr _ | .clrf _ | .oe _ | .srrst | .write _ | .status _ | .cfgint _ => s.phase) ∧
  (∀ (i : Instr) (s : State), cmdReady s = true → i.acceptedIn s.phase = false →
    exec i s = .refused (.outOfPhase s.phase)) ∧
  (∀ (u : Turn) (s t : State), takeTurn u s = .next t →
    (u = .ustep ∨ u = .resume ∨ u = .irq ∨ ∃ p, u = .pinchg p) → t.phase = s.phase) ∧
  (∀ (p : Nibble) (s : State), (powerCycle p s).phase = 0)

/-- A host that keeps the iteration order from a ready block on is never refused for the phase, whatever else it does
(R260): also when a GOV of its sends the block to sleep, where the rest is held. -/
def Obligations.HostInOrderIsNeverOutOfPhase : Prop :=
  ∀ (is : List Instr) (s : State), cmdReady s = true → wellOrdered s.phase is = true →
    ∀ p, runProgram is s ≠ .refused (.outOfPhase p)

/-- The model's choice (log 2): with an empty agenda the handler goes first, then MAIN's micro-step, return and command;
with none enabled the block waits unchanged, as R230 says of a block with no enabled step. -/
def Obligations.FairOrderAndWaiting : Prop :=
  ∀ s : State, s.agenda = [] →
    (irqLine s = true → step s = .next (takeInterrupt s)) ∧
    (irqLine s = false → s.seqOp ≠ .idle → step s = ustep s) ∧
    (irqLine s = false → s.seqOp = .idle → resumeEnabled s = true → step s = .next (resume s)) ∧
    (irqLine s = false → s.seqOp = .idle → resumeEnabled s = false → (cmdReady s = false ∨ s.cmds = []) →
      step s = .next s)

/-- The model's choice (log 12): a turn whose transition is not enabled (R92) passes and changes nothing else. -/
def Obligations.TurnNotEnabledPasses : Prop :=
  ∀ (s : State) (us : List Turn),
    (s.agenda = .ustep :: us → s.seqOp = .idle → step s = .next { s with agenda := us }) ∧
    (s.agenda = .resume :: us → (s.gstate = .active ∨ s.wakeLatch = false) → step s = .next { s with agenda := us }) ∧
    (s.agenda = .irq :: us → irqLine s = false → step s = .next { s with agenda := us }) ∧
    (s.agenda = .pinchg s.pin :: us → step s = .next { s with agenda := us }) ∧
    (s.agenda = .command :: us → (cmdReady s = false ∨ s.cmds = []) → step s = .next { s with agenda := us })

/-- Which commands write which register: the writers the register's own rule names (10_state.md R20 to R42, 41_serial.md
R164). In particular no command writes a pending flag, the pins, `wake_latch` or the external register. -/
def Obligations.EachRegisterHasItsWriters : Prop :=
  ∀ (i : Instr) (s t : State), exec i s = .next t →
    (t.btn = s.btn ∨ i = .deb ∨ (∃ b, i = .clrr b) ∨ ∃ b, i = .clrf b) ∧
    (t.raw = s.raw ∨ i = .sample) ∧
    (t.phase = s.phase ∨ i = .sample ∨ i = .deb ∨ ∃ f, i = .gov f) ∧
    ((t.seqOp = s.seqOp ∧ t.seqStep = s.seqStep) ∨ i = .srrst ∨ ∃ v, i = .write v) ∧
    ((t.seqVal = s.seqVal ∧ t.seqI = s.seqI) ∨ ∃ v, i = .write v) ∧
    (t.idleTimer = s.idleTimer ∨ ∃ f, i = .gov f) ∧
    (t.gstate = s.gstate ∨ i = .gov false) ∧
    ((t.lines = s.lines ∧ t.trace = s.trace) ∨ (∃ f, i = .oe f) ∨ i = .gov false) ∧
    (t.lines.data = s.lines.data ∧ t.lines.clk = s.lines.clk ∧ t.lines.latch = s.lines.latch
      ∧ t.lines.rstN = s.lines.rstN) ∧
    (t.status = s.status ∨ (∃ v, i = .status v) ∨ i = .gov false) ∧
    (t.intcfg = s.intcfg ∨ ∃ c, i = .cfgint c) ∧
    (t.lcPending = s.lcPending ∧ t.edgePending = s.edgePending ∧ t.pin = s.pin ∧ t.wakeLatch = s.wakeLatch
      ∧ t.ext = s.ext ∧ t.params = s.params ∧ t.cmds = s.cmds ∧ t.agenda = s.agenda)

/-! ### Debouncer (40_debounce.md) -/

/-- R110. -/
def Obligations.SampleReadsThePins : Prop :=
  encode .sample = 0x020000 ∧
  (∀ s : State, cmdReady s = true → s.phase = 0 → exec .sample s = .next { s with raw := ~~~s.pin, phase := 1 }) ∧
  (∀ s : State, cmdReady s = true → s.phase ≠ 0 → exec .sample s = .refused (.outOfPhase s.phase)) ∧
  (∀ (s : State) (p : Nibble), (pinChange p s).raw = s.raw)

/-- R118: all four records, each with its own sample; out of phase it is refused, asleep it does not run. That a DEB which
does not run answers the unchanged state, where R10 has "held" as an outcome of its own, is the model's (log 11,
DEDUCED). -/
def Obligations.DebUpdatesTheFourButtons : Prop :=
  encode .deb = 0x040000 ∧
  (∀ s : State, cmdReady s = true → s.phase = 1 →
    exec .deb s = .next { s with
      btn :=
        { red := update s.params.debounceWindow s.params.holdWindow s.btn.red (s.raw.getLsbD 0)
          green := update s.params.debounceWindow s.params.holdWindow s.btn.green (s.raw.getLsbD 1)
          blue := update s.params.debounceWindow s.params.holdWindow s.btn.blue (s.raw.getLsbD 2)
          key := update s.params.debounceWindow s.params.holdWindow s.btn.key (s.raw.getLsbD 3) }
      phase := 2 }) ∧
  (∀ s : State, cmdReady s = true → s.phase ≠ 1 → exec .deb s = .refused (.outOfPhase s.phase)) ∧
  (∀ s : State, s.gstate = .asleep → exec .deb s = .next s)

/-- R112 with R114: exactly one of the branches, with the whole record it leaves. -/
def Obligations.UpdateIsTheAlgorithm : Prop :=
  ∀ (dw hw : Nat) (B : Button) (r : Bool),
    update dw hw B r =
      if r ≠ B.last then { B with current := r, last := r, debounceCounter := dw }
      else if B.debounceCounter = 1 then
        { B with current := r, debounceCounter := 0, holdCounter := hw, risingEdge := r, fallingEdge := !r }
      else if 1 < B.debounceCounter then { B with current := r, debounceCounter := B.debounceCounter - 1 }
      else if B.holdCounter = 1 then
        { B with current := r, holdCounter := hw, risingEdge := r, fallingEdge := !r }
      else { B with current := r, holdCounter := B.holdCounter - 1 }

/-- R115: after a change that stays, no trigger before tick `t0 + DW`, and one there, in the direction of the new
level. -/
def Obligations.DebounceTriggerAtTheEndOfTheWindow : Prop :=
  ∀ (dw hw : Nat) (B : Button) (r : Bool), 1 ≤ dw → B.last = B.current → r ≠ B.current →
    (∀ k, k < dw → updates dw hw (List.replicate (k + 1) r) B
      = { B with current := r, last := r, debounceCounter := dw - k }) ∧
    updates dw hw (List.replicate (dw + 1) r) B
      = { current := r, last := r, debounceCounter := 0, holdCounter := hw, risingEdge := r, fallingEdge := !r }

/-- R116, at either level (R117): from the record a trigger leaves, whatever flags the host has cleared, the flags stay
until `HW` ticks later, a trigger comes there, and again every `HW` ticks. -/
def Obligations.HoldTriggerEveryHoldWindow : Prop :=
  ∀ (dw hw : Nat) (B : Button), 1 ≤ hw → B.last = B.current → B.debounceCounter = 0 → B.holdCounter = hw →
    (∀ k, k < hw → updates dw hw (List.replicate k B.current) B = { B with holdCounter := hw - k }) ∧
    (∀ n k, k < hw → updates dw hw (List.replicate ((n + 1) * hw + k) B.current) B
      = { B with holdCounter := hw - k, risingEdge := B.current, fallingEdge := !B.current })

/-- R125: a change at `t0` that reverses at `t0 + j`, `1 ≤ j ≤ DW`, triggers nothing before `t0 + j + DW`, and there a
trigger in the direction of the restored level. -/
def Obligations.ReversedFlipTriggersTheRestoredLevel : Prop :=
  ∀ (dw hw j : Nat) (B : Button), 1 ≤ j → j ≤ dw → B.last = B.current →
    (∀ m, 1 ≤ m → m ≤ j → updates dw hw (List.replicate m (!B.current)) B
      = { B with current := !B.current, last := !B.current, debounceCounter := dw - (m - 1) }) ∧
    (∀ k, k < dw → updates dw hw (List.replicate j (!B.current) ++ List.replicate (k + 1) B.current) B
      = { B with debounceCounter := dw - k }) ∧
    updates dw hw (List.replicate j (!B.current) ++ List.replicate (dw + 1) B.current) B
      = { B with
          debounceCounter := 0, holdCounter := hw, risingEdge := B.current, fallingEdge := !B.current }

/-- R124: a positive hold counter stays in `1 .. HW`, and one at zero leaves zero only by a trigger. -/
def Obligations.HoldCounterIsPositiveFromTheFirstTrigger : Prop :=
  ∀ (dw hw : Nat) (B : Button) (r : Bool), 1 ≤ hw →
    (1 ≤ B.holdCounter → B.holdCounter ≤ hw →
      1 ≤ (update dw hw B r).holdCounter ∧ (update dw hw B r).holdCounter ≤ hw) ∧
    (B.holdCounter = 0 →
      ((update dw hw B r).holdCounter = 0 ∧ (update dw hw B r).risingEdge = B.risingEdge
        ∧ (update dw hw B r).fallingEdge = B.fallingEdge) ∨
      ((update dw hw B r).holdCounter = hw ∧ (update dw hw B r).risingEdge = r
        ∧ (update dw hw B r).fallingEdge = !r))

/-- R127: with `DW = 0` nothing ever triggers from reset; with `HW = 0` debounce triggers come and load 0, and no hold
trigger does. -/
def Obligations.ZeroWindowsTriggerAsTheAlgorithmSays : Prop :=
  (∀ (hw : Nat) (rs : List Bool),
    (updates 0 hw rs .zero).risingEdge = false ∧ (updates 0 hw rs .zero).fallingEdge = false
      ∧ (updates 0 hw rs .zero).holdCounter = 0) ∧
  (∀ (dw : Nat) (B : Button) (r : Bool), 1 ≤ dw → B.last = B.current → r ≠ B.current →
    updates dw 0 (List.replicate (dw + 1) r) B
      = { current := r, last := r, debounceCounter := 0, holdCounter := 0, risingEdge := r, fallingEdge := !r }) ∧
  (∀ (dw n : Nat) (B : Button), B.last = B.current → B.debounceCounter = 0 → B.holdCounter = 0 →
    updates dw 0 (List.replicate n B.current) B = B) ∧
  (∀ (dw : Nat) (rs : List Bool), (updates dw 0 rs .zero).holdCounter = 0)

/-- R121: CLRR clears that one flag; every other record and every other field stays. -/
def Obligations.ClrrClearsOneRisingFlag : Prop :=
  (encode (.clrr .red) = 0x060000 ∧ encode (.clrr .green) = 0x060001 ∧ encode (.clrr .blue) = 0x060002
    ∧ encode (.clrr .key) = 0x060003) ∧
  (∀ (b : ButtonId) (s : State), cmdReady s = true → s.phase = 0 ∨ s.phase = 2 →
    ∃ t, exec (.clrr b) s = .next t ∧ t = { s with btn := t.btn } ∧
      ∀ c, t.btn.get c = if c = b then { s.btn.get b with risingEdge := false } else s.btn.get c)

/-- R122: CLRF, the same for the other flag. -/
def Obligations.ClrfClearsOneFallingFlag : Prop :=
  (encode (.clrf .red) = 0x080000 ∧ encode (.clrf .green) = 0x080001 ∧ encode (.clrf .blue) = 0x080002
    ∧ encode (.clrf .key) = 0x080003) ∧
  (∀ (b : ButtonId) (s : State), cmdReady s = true → s.phase = 0 ∨ s.phase = 2 →
    ∃ t, exec (.clrf b) s = .next t ∧ t = { s with btn := t.btn } ∧
      ∀ c, t.btn.get c = if c = b then { s.btn.get b with fallingEdge := false } else s.btn.get c)

/-- R27, R123, R128 and the ranges of R23, R24, for every step of every agent, whatever the host clears. -/
def Obligations.ButtonRecordsKeepTheirInvariant : Prop :=
  ∀ s t : State, ButtonsInv s → step s = .next t → ButtonsInv t

/-! ### Serial driver and external register (41_serial.md) -/

/-- R140: one wire event, OE_N the complement of the operand; the external register does not change. -/
def Obligations.OeDrivesTheEnableLine : Prop :=
  encode (.oe true) = 0x0A0001 ∧ encode (.oe false) = 0x0A0000 ∧
  (∀ (f : Bool) (s : State), cmdReady s = true → s.phase = 0 ∨ s.phase = 2 →
    exec (.oe f) s = .next { s with
      lines := { s.lines with oeN := !f }
      trace := s.trace ++ [⟨.oeN, !f⟩] })

/-- R145: accepting WRITE or SRRST loads the sequencer, makes no wire event, and the block is no longer ready. -/
def Obligations.WriteAndSrrstLoadTheSequencer : Prop :=
  ∀ s : State, cmdReady s = true → s.phase = 0 ∨ s.phase = 2 →
    (∀ v, exec (.write v) s = .next { s with seqOp := .write, seqVal := v, seqI := 16, seqStep := 0 }) ∧
    exec .srrst s = .next { s with seqOp := .srrst, seqStep := 0 } ∧
    (∀ v t, exec (.write v) s = .next t ∨ exec .srrst s = .next t → cmdReady t = false)

/-- R146: the micro-step table, one clause a row, and the `5W + 4` micro-steps of a WRITE; `Wire` is the spec's
primitive (R9). -/
def Obligations.MicroStepTable : Prop :=
  ∀ s : State,
    (s.seqOp = .write →
      (s.seqStep = 0 → s.seqI.toNat ≤ 16 →
        ustep s = .next { wire .data (s.seqVal.getLsbD s.seqI.toNat) s with seqStep := 1 }) ∧
      (s.seqStep = 1 → ustep s = .next { wire .clk true s with seqStep := 2 }) ∧
      (s.seqStep = 2 → ustep s = .next { s with seqStep := 3 }) ∧
      (s.seqStep = 3 → ustep s = .next { wire .clk false s with seqStep := 4 }) ∧
      (s.seqStep = 4 → 0 < s.seqI → ustep s = .next { s with seqI := s.seqI - 1, seqStep := 0 }) ∧
      (s.seqStep = 4 → s.seqI = 0 → ustep s = .next { s with seqStep := 5 }) ∧
      (s.seqStep = 5 → ustep s = .next { wire .latch true s with seqStep := 6 }) ∧
      (s.seqStep = 6 → ustep s = .next { s with seqStep := 7 }) ∧
      (s.seqStep = 7 → ustep s = .next { wire .latch false s with seqStep := 8 }) ∧
      (s.seqStep = 8 → ustep s = .next { s with seqOp := .idle, seqStep := 0, seqI := 0 })) ∧
    (s.seqOp = .srrst →
      (s.seqStep = 0 → ustep s = .next { wire .rstN false s with seqStep := 1 }) ∧
      (s.seqStep = 1 → ustep s = .next { s with seqStep := 2 }) ∧
      (s.seqStep = 2 → ustep s = .next { wire .rstN true s with seqOp := .idle, seqStep := 0 })) ∧
    (s.seqOp = .write → s.seqI = 16 → s.seqStep = 0 →
      (∀ n, n < 5 * displayWidth + 4 → ∃ t, usteps n s = .next t ∧ t.seqOp = .write ∧ t.seqVal = s.seqVal) ∧
      ∃ t, usteps (5 * displayWidth + 4) s = .next t ∧ t.seqOp = .idle ∧ t.seqVal = s.seqVal)

/-- The frame of USTEP (R148, R149): only the sequencer, the four lines that are not OE_N, the external register and the
wire history, which grows by at most one event, never one on OE_N. -/
def Obligations.MicroStepsTouchOnlyTheSerialDriver : Prop :=
  ∀ s t : State, ustep s = .next t →
    t = { s with
      seqOp := t.seqOp, seqI := t.seqI, seqStep := t.seqStep, lines := t.lines, ext := t.ext, trace := t.trace } ∧
    t.lines.oeN = s.lines.oeN ∧
    (t.trace = s.trace ∨ ∃ L x, L ≠ .oeN ∧ t.trace = s.trace ++ [⟨L, x⟩])

/-- R142, R162: a complete WRITE from idle lines and any state of the external register. It makes exactly
`events(v)`, and every bit of both registers of EXT is specified and equal to the word's. -/
def Obligations.WholeWriteShiftsAndLatchesTheWord : Prop :=
  ∀ (v : Display) (s : State), encode (.write v) = 0x0E0000 + v.setWidth 21 ∧ (cmdReady s = true →
    s.phase = 0 ∨ s.phase = 2 → s.lines.clk = false → s.lines.latch = false → s.lines.rstN = true → ExtInv s →
    runWhole (.write v) s = .next { s with
      seqVal := v
      seqI := 0
      seqStep := 0
      lines := { s.lines with data := v.getLsbD 0 }
      ext := ⟨specified v, specified v⟩
      trace := s.trace ++ writeEvents v })

/-- R141, R159: a complete SRRST makes two wire events, clears the stages and leaves the latched word. -/
def Obligations.WholeSrrstClearsTheStages : Prop :=
  encode .srrst = 0x0C0000 ∧
  ∀ s : State, cmdReady s = true → s.phase = 0 ∨ s.phase = 2 → s.lines.rstN = true →
    runWhole .srrst s = .next { s with
      seqStep := 0
      ext := ⟨specified 0, s.ext.out⟩
      trace := s.trace ++ [⟨.rstN, false⟩, ⟨.rstN, true⟩] }

/-- R153: the wire sees `W` bits, the most significant first, whatever level DATA had before. -/
def Obligations.BitsSeenAreMsbFirst : Prop :=
  ∀ (d : Bool) (v : Display),
    (writeEvents v).length = 3 * displayWidth + 2 ∧
    bitsSeen d (writeEvents v) = (List.range displayWidth).map fun i => v.getLsbD (16 - i)

/-- R154: two WRITEs of one word make the same events and the same bits, and the second leaves the external register as
the first left it. -/
def Obligations.WriteTwiceIsIdempotent : Prop :=
  ∀ (v : Display) (s : State), cmdReady s = true → s.phase = 0 ∨ s.phase = 2 → LinesInv s → ExtInv s →
    ∃ t u E, runWhole (.write v) s = .next t ∧ runWhole (.write v) t = .next u ∧
      t.trace = s.trace ++ E ∧ u.trace = t.trace ++ E ∧ bitsSeen s.lines.data E = bitsSeen t.lines.data E ∧
      u.ext = t.ext

/-- R163: 0, the full mask, 0 leaves the latched outputs at 0, and at the full mask in between. -/
def Obligations.RoundTripLeavesZero : Prop :=
  ∀ s : State, cmdReady s = true → s.phase = 0 ∨ s.phase = 2 → LinesInv s → ExtInv s →
    ∃ t u, runProgram [.write 0, .write 0x1FFFF] s = .next t ∧ t.ext.out = specified 0x1FFFF ∧
      runProgram [.write 0, .write 0x1FFFF, .write 0] s = .next u ∧ u.ext.out = specified 0

/-- R253: the start-up sequence from power-on, with any parameters and any pins. -/
def Obligations.StartupLeavesAZeroedEnabledDisplay : Prop :=
  ∀ (p : Params) (pins : Nibble), ∃ t, runProgram (expand .startup) (.powerOn p pins) = .next t ∧
    t = { State.powerOn p pins with
      lines := ⟨false, false, false, false, true⟩
      ext := ⟨specified 0, specified 0⟩
      trace := [⟨.rstN, false⟩, ⟨.rstN, true⟩] ++ writeEvents 0 ++ [⟨.oeN, false⟩] } ∧
    t.trace.length = 56 ∧ ∀ i, i < displayWidth → led t i = some false

/-- R150, with the levels inside a sequence that make it hold step after step: idle lines whenever `seq_op = IDLE`. -/
def Obligations.LinesAreIdleBetweenSequences : Prop :=
  ∀ s t : State, LinesInv s → step s = .next t → LinesInv t

/-- R157, R158, R159, R161: what each wire event does to an external register of `W` stages. -/
def Obligations.WireEventsDriveTheExternalRegister : Prop :=
  ∀ (l : Lines) (e : Ext), e.chain.length = displayWidth →
    (l.clk = false → l.rstN = true →
      (e.react l ⟨.clk, true⟩).out = e.out ∧ (e.react l ⟨.clk, true⟩).chain.length = displayWidth ∧
      (e.react l ⟨.clk, true⟩).chain[0]? = some (some l.data) ∧
      ∀ i, i + 1 < displayWidth → (e.react l ⟨.clk, true⟩).chain[i + 1]? = e.chain[i]?) ∧
    (l.latch = false → e.react l ⟨.latch, true⟩ = ⟨e.chain, e.chain⟩) ∧
    e.react l ⟨.rstN, false⟩ = ⟨specified 0, e.out⟩ ∧
    (∀ x, e.react l ⟨.data, x⟩ = e ∧ e.react l ⟨.oeN, x⟩ = e) ∧
    e.react l ⟨.clk, false⟩ = e ∧ e.react l ⟨.latch, false⟩ = e ∧ e.react l ⟨.rstN, true⟩ = e ∧
    (l.clk = true → e.react l ⟨.clk, true⟩ = e) ∧ (l.rstN = false → e.react l ⟨.clk, true⟩ = e) ∧
    (l.latch = true → e.react l ⟨.latch, true⟩ = e)

/-- R160, with U3's stretch: dark while disabled, else the latched bit; during the stretch no value. -/
def Obligations.LedsShowTheLatchedWordWhenEnabled : Prop :=
  ∀ (s : State) (i : Nat),
    (s.lines.oeN = true → led s i = some false) ∧
    (s.lines.oeN = false → s.seqOp ≠ .write → ∀ x, s.ext.out[i]? = some x → led s i = x) ∧
    (s.lines.oeN = false → s.seqOp = .write →
      (6 ≤ s.seqStep.toNat ∨ (s.seqI = 16 ∧ s.seqStep.toNat < 2)) → ∀ x, s.ext.out[i]? = some x → led s i = x) ∧
    (s.lines.oeN = false → s.seqOp = .write → s.seqStep.toNat ≤ 5 →
      (s.seqI.toNat < 16 ∨ 2 ≤ s.seqStep.toNat) → led s i = none)

/-- R149: a micro-step and the handler, and a micro-step and a pin change, give the same state in either order. -/
def Obligations.MicroStepsCommuteWithHandlerAndPins : Prop :=
  ∀ s t : State, ustep s = .next t →
    ustep (takeInterrupt s) = .next (takeInterrupt t) ∧
    (∀ p, ustep (pinChange p s) = .next (pinChange p t)) ∧
    irqLine t = irqLine s

/-- R11, R156: the lines and the external register are the replay of the wire history from power-on, kept by every step
of every agent. -/
def Obligations.ExternalRegisterIsAFunctionOfTheWires : Prop :=
  ∀ s t : State, HistoryInv s → step s = .next t → HistoryInv t

/-! ### Governor (42_governor.md) -/

/-- R183, R184: reload on activity; else decrement, and at zero the three writes of sleep entry. At zero it is refused
(93_implementation_defined.md U5). -/
def Obligations.GovReloadsCountsDownAndSleeps : Prop :=
  encode (.gov false) = 0x120000 ∧ encode (.gov true) = 0x120001 ∧
  ∀ s : State, cmdReady s = true →
    (s.phase = 2 →
      exec (.gov true) s = .next { s with idleTimer := s.params.idleTimeoutTicks, phase := 0 } ∧
      (2 ≤ s.idleTimer → exec (.gov false) s = .next { s with idleTimer := s.idleTimer - 1, phase := 0 }) ∧
      (s.idleTimer = 1 → exec (.gov false) s = .next { s with
        idleTimer := 0
        lines := { s.lines with oeN := true }
        trace := s.trace ++ [⟨.oeN, true⟩]
        status := 0
        gstate := .asleep
        phase := 0 }) ∧
      (s.idleTimer = 0 → exec (.gov false) s = .refused .idleUnderflow)) ∧
    (s.phase ≠ 2 → ∀ f, exec (.gov f) s = .refused (.outOfPhase s.phase))

/-- R192. -/
def Obligations.StatusWritesTheIndicators : Prop :=
  ∀ (v : Nibble) (s : State), encode (.status v) = 0x100000 + v.setWidth 21 ∧
    (cmdReady s = true → s.phase = 0 ∨ s.phase = 2 → exec (.status v) s = .next { s with status := v })

/-- R193: the three fields, and no pending flag. -/
def Obligations.CfgintWritesTheConfiguration : Prop :=
  ∀ (c : IntCfg) (s : State), encode (.cfgint c) = 0x140000 + c.setWidth 21 ∧
    (cmdReady s = true → s.phase = 0 ∨ s.phase = 2 →
      ∃ t, exec (.cfgint c) s = .next t ∧ t = { s with intcfg := t.intcfg } ∧
        lcEn t.intcfg = c.getLsbD 0 ∧
        (∀ k, k < 4 → (edgeEn t.intcfg).getLsbD k = c.getLsbD (k + 1)) ∧
        (∀ k, k < 4 → (edgeSel t.intcfg).getLsbD k = c.getLsbD (k + 5)))

/-- R188: from a full timer, `T` idle iterations end asleep and `T - 1` do not; an active one puts the count back. -/
def Obligations.SleepsAfterExactlyTheTimeout : Prop :=
  ∀ s : State, cmdReady s = true → s.phase = 0 → 1 ≤ s.params.idleTimeoutTicks →
    s.idleTimer = s.params.idleTimeoutTicks →
    (∀ n, n < s.params.idleTimeoutTicks →
      ∃ t, runProgram (List.replicate n (iteration false)).flatten s = .next t ∧
        cmdReady t = true ∧ t.phase = 0 ∧ t.idleTimer = s.params.idleTimeoutTicks - n ∧ t.trace = s.trace) ∧
    (∃ t, runProgram (List.replicate s.params.idleTimeoutTicks (iteration false)).flatten s = .next t ∧
      t.gstate = .asleep ∧ t.phase = 0 ∧ t.idleTimer = 0 ∧ t.trace = s.trace ++ [⟨.oeN, true⟩]) ∧
    (∀ n, n < s.params.idleTimeoutTicks →
      ∃ t, runProgram ((List.replicate n (iteration false)).flatten ++ iteration true) s = .next t ∧
        cmdReady t = true ∧ t.phase = 0 ∧ t.idleTimer = s.params.idleTimeoutTicks)

/-- R187, with what makes it hold step after step: a sequence only while Active (R147), phase 0, dark and cleared while
asleep (R184). -/
def Obligations.GovernorKeepsItsRange : Prop :=
  ∀ s t : State, GovernorInv s → step s = .next t → GovernorInv t

/-- While asleep no command is accepted and no step of MAIN happens but RESUME once the wake is recorded (`cmd_ready`:
R82; the one enabled step of MAIN: R185, R190). The model's choice (log 11, log 12): a turn of MAIN that is not enabled
passes, as a next state with only the agenda changed; no rule says what such a turn does. -/
def Obligations.AsleepMainOnlyResumes : Prop :=
  ∀ (s : State) (us : List Turn), s.gstate = .asleep → s.seqOp = .idle →
    cmdReady s = false ∧
    ((s.agenda = .command :: us ∨ s.agenda = .ustep :: us) → step s = .next { s with agenda := us }) ∧
    (s.agenda = .resume :: us → s.wakeLatch = false → step s = .next { s with agenda := us }) ∧
    (s.agenda = .resume :: us → s.wakeLatch = true → ∃ t, step s = .next t ∧ t.gstate = .active)

/-- R190; and a further handler or pin change before it does not disable it. -/
def Obligations.ResumeEnablesTheOutputAndReloads : Prop :=
  (∀ s : State, resumeEnabled s = true →
    resumeEnabled (takeInterrupt s) = true ∧ ∀ p, resumeEnabled (pinChange p s) = true) ∧
  ∀ s : State, s.gstate = .asleep → s.wakeLatch = true →
    takeTurn .resume s = .next { s with
      lines := { s.lines with oeN := false }
      trace := s.trace ++ [⟨.oeN, false⟩]
      idleTimer := s.params.idleTimeoutTicks
      gstate := .active
      wakeLatch := false }

/-- R189 to R191 (the three turns in this order by the agenda, log 1): asleep with the level-change source enabled, a pin change, the handler and the return wake the block,
with the timer full and the output enabled; the indicators, the buttons and the phase are not touched. -/
def Obligations.PinChangeWakesTheBlock : Prop :=
  ∀ (s : State) (p : Nibble) (us : List Turn), s.gstate = .asleep → lcEn s.intcfg = true → p ≠ s.pin →
    s.agenda = .pinchg p :: .irq :: .resume :: us →
    ∃ a b t, step s = .next a ∧ step a = .next b ∧ step b = .next t ∧
      irqLine a = true ∧ irqLine b = false ∧ b.wakeLatch = true ∧ b.gstate = .asleep ∧
      t = { s with
        agenda := us
        pin := p
        lcPending := false
        edgePending := 0
        wakeLatch := false
        gstate := .active
        idleTimer := s.params.idleTimeoutTicks
        lines := { s.lines with oeN := false }
        trace := s.trace ++ [⟨.oeN, false⟩] }

/-- R195: what the governor does depends on its operand, the timer and the wake alone, given that the command is
accepted. Two states that agree on these agree, after GOV and after the return, on each thing the governor writes: the
timer, the governor state, the phase, `wake_latch`, OE_N, `status`, the wire events. A GOV that does not sleep leaves
OE_N and `status`, so there the two states must have agreed on them before. -/
def Obligations.GovernorReadsNoPinAndNoButton : Prop :=
  ∀ (f : Bool) (s₁ s₂ t₁ : State), s₁.idleTimer = s₂.idleTimer → s₁.params = s₂.params →
    s₁.gstate = s₂.gstate → s₁.seqOp = s₂.seqOp → s₁.phase = s₂.phase → s₁.wakeLatch = s₂.wakeLatch →
    resumeEnabled s₁ = resumeEnabled s₂ ∧
    ((resume s₁).idleTimer = (resume s₂).idleTimer ∧ (resume s₁).gstate = (resume s₂).gstate ∧
      (resume s₁).phase = (resume s₂).phase ∧ (resume s₁).wakeLatch = (resume s₂).wakeLatch ∧
      (resume s₁).lines.oeN = (resume s₂).lines.oeN ∧ (s₁.status = s₂.status → (resume s₁).status = (resume s₂).status) ∧
      ∃ E, (resume s₁).trace = s₁.trace ++ E ∧ (resume s₂).trace = s₂.trace ++ E) ∧
    (exec (.gov f) s₁ = .next t₁ → ∃ t₂ E, exec (.gov f) s₂ = .next t₂ ∧
      t₂.idleTimer = t₁.idleTimer ∧ t₂.gstate = t₁.gstate ∧ t₂.phase = t₁.phase ∧ t₂.wakeLatch = t₁.wakeLatch ∧
      ((s₁.lines.oeN = s₂.lines.oeN ∨ t₁.gstate ≠ s₁.gstate) → t₂.lines.oeN = t₁.lines.oeN) ∧
      ((s₁.status = s₂.status ∨ t₁.gstate ≠ s₁.gstate) → t₂.status = t₁.status) ∧
      t₁.trace = s₁.trace ++ E ∧ t₂.trace = s₂.trace ++ E)

/-! ### Interrupts (60_exceptions.md) -/

/-- R213, pin by pin; and changing two sets of pins at once leaves what changing them one after the other leaves. -/
def Obligations.PinChangeSetsThePendingFlags : Prop :=
  (∀ (s : State) (p : Nibble), p ≠ s.pin →
    ∃ t, takeTurn (.pinchg p) s = .next t ∧
      t = { s with pin := p, lcPending := true, edgePending := t.edgePending } ∧
      ∀ b, (buttonBit t.edgePending b = true ↔
        buttonBit s.edgePending b = true ∨
        (buttonBit s.pin b = true ∧ buttonBit p b = false ∧ buttonBit (edgeSel s.intcfg) b = false) ∨
        (buttonBit s.pin b = false ∧ buttonBit p b = true ∧ buttonBit (edgeSel s.intcfg) b = true))) ∧
  (∀ (s : State) (m n : Nibble), m &&& n = 0 →
    pinChange (s.pin ^^^ m ^^^ n) s = pinChange (s.pin ^^^ m ^^^ n) (pinChange (s.pin ^^^ m) s))

/-- R219: the handler clears all five flags, enabled or not, records the wake if asleep, and writes nothing else. -/
def Obligations.HandlerAcknowledgesEveryFlag : Prop :=
  ∀ s : State, irqLine s = true →
    ∃ t, takeTurn .irq s = .next t ∧ irqLine t = false ∧
      (s.gstate = .asleep → t = { s with lcPending := false, edgePending := 0, wakeLatch := true }) ∧
      (s.gstate = .active → t = { s with lcPending := false, edgePending := 0 })

/-- R216. -/
def Obligations.RequestLineIsTheOrOfEnabledFlags : Prop :=
  ∀ s : State, irqLine s = true ↔
    (lcEn s.intcfg = true ∧ s.lcPending = true) ∨
    ∃ b, buttonBit (edgeEn s.intcfg) b = true ∧ buttonBit s.edgePending b = true

/-- R217: PINCHG sets, IRQ clears, POR clears; every other turn, a command's among them, leaves the five flags. -/
def Obligations.PendingFlagsAreNotMainsToWrite : Prop :=
  ∀ (u : Turn) (s t : State), takeTurn u s = .next t →
    (u = .command ∨ u = .ustep ∨ u = .resume → t.lcPending = s.lcPending ∧ t.edgePending = s.edgePending) ∧
    ((∃ p, u = .pinchg p) → (s.lcPending = true → t.lcPending = true) ∧
      ∀ b, buttonBit s.edgePending b = true → buttonBit t.edgePending b = true) ∧
    ((∃ p, u = .por p) → t.lcPending = false ∧ t.edgePending = 0)

/-- R219, R221: run while Active, the handler has no effect on what any command then does. -/
def Obligations.HandlerWhileActiveDoesNotDisturbCommands : Prop :=
  ∀ (i : Instr) (s t : State), s.gstate = .active → exec i s = .next t →
    exec i (takeInterrupt s) = .next { t with lcPending := false, edgePending := 0 }

/-- R194, R230: asleep with no source enabled and no wake recorded, every step but a power cycle leaves the block so, and
makes no wire event. That a turn which is not enabled passes, and that a block with an empty agenda waits as a next state,
is the model's choice (log 12, log 2). -/
def Obligations.HungBlockStaysHung : Prop :=
  ∀ s : State, Hung s → (∀ p us, s.agenda ≠ .por p :: us) →
    ∃ t, step s = .next t ∧ Hung t ∧ t.trace = s.trace ∧ t.cmds = s.cmds

/-! ### Reset (70_reset_and_hazards.md) -/

/-- R250, R251 and the table of 10_state.md section 7: a power cycle in any state, also in the middle of a WRITE. -/
def Obligations.PowerCycleGivesTheResetTable : Prop :=
  ∀ (s : State) (p : Nibble),
    ∃ t, takeTurn (.por p) s = .next t ∧
      (∀ b, t.btn.get b = ⟨false, false, 0, 0, false, false⟩) ∧ t.raw = 0 ∧ t.phase = 0 ∧
      t.seqOp = .idle ∧ t.seqVal = 0 ∧ t.seqI = 0 ∧ t.seqStep = 0 ∧
      t.idleTimer = s.params.idleTimeoutTicks ∧ t.gstate = .active ∧
      t.lines = ⟨false, false, false, true, true⟩ ∧ t.status = 0 ∧ t.lcPending = false ∧ t.edgePending = 0 ∧
      t.intcfg = 0 ∧ t.wakeLatch = false ∧ t.trace = [] ∧
      (∀ i, led t i = some false) ∧ irqLine t = false ∧ cmdReady t = true ∧ t.pin = p ∧ t.params = s.params

/-- Every invariant above holds right after reset, and this machine's parameters meet R6. -/
def Obligations.ResetMeetsEveryInvariant : Prop :=
  Config.params.wellFormed = true ∧ ButtonsInv .reset ∧ LinesInv .reset ∧ GovernorInv .reset ∧ HistoryInv .reset
    ∧ ExtInv .reset

/-- R156: the external register keeps its `W` stages and outputs, whatever step is taken. -/
def Obligations.ExternalRegisterKeepsItsWidth : Prop :=
  ∀ s t : State, ExtInv s → step s = .next t → ExtInv t

/-- R13: from a quiescent point at which the block is asleep and no wake is recorded, no step of MAIN or the handler moves
it: only a pin change or a power cycle does. The model's choice (log 20): `Quiescent` takes R13's formula, which also
holds between the handler and RESUME, where RESUME is enabled; its gloss, which the conclusion formalises, needs
`wake_latch = 0` beside it. A turn that is not enabled passes (log 12). -/
def Obligations.AsleepQuiescentPointMovesOnlyFromOutside : Prop :=
  ∀ (s t : State) (u : Turn) (us : List Turn), Quiescent s → s.gstate = .asleep → s.seqOp = .idle →
    s.wakeLatch = false → s.agenda = u :: us → step s = .next t → t ≠ { s with agenda := us } →
    (∃ p, u = .pinchg p ∧ p ≠ s.pin) ∨ ∃ p, u = .por p
end

