-- ==== Sys2Proof/Laws/Operands.lean ====
section
/-! SUPPORT. Laws of the operand forms: the button file, button vectors, the lines, the external register. -/

namespace Sys2Proof.Machine

/-- A read of the button file after a write: the record written, or the record that stood there (R20). -/
@[simp] theorem Buttons.get_set (f : Buttons) (b c : ButtonId) (r : Button) :
    (f.set b r).get c = if c = b then r else f.get c := by
  cases b <;> cases c <;> rfl

/-- Two button files with the same four records are equal. -/
theorem Buttons.ext_get {f g : Buttons} (h : ∀ b, f.get b = g.get b) : f = g := by
  cases f
  cases g
  simpa [Buttons.get] using And.intro (h .red) (And.intro (h .green) (And.intro (h .blue) (h .key)))

/-- Writing a record back where it stood changes nothing. -/
@[simp] theorem Buttons.set_get (f : Buttons) (b : ButtonId) : f.set b (f.get b) = f := by
  cases b <;> rfl

/-- The bits of a vector given bit by bit (R7). -/
theorem buttonBit_nibbleOf : ∀ k u g r : Bool,
    buttonBit (nibbleOf k u g r) .red = r ∧ buttonBit (nibbleOf k u g r) .green = g ∧
      buttonBit (nibbleOf k u g r) .blue = u ∧ buttonBit (nibbleOf k u g r) .key = k := by
  decide

/-- Bit `b` of the vector of `f` is `f b` (R7). -/
@[simp] theorem buttonBit_buttonVector (f : ButtonId → Bool) (b : ButtonId) :
    buttonBit (buttonVector f) b = f b := by
  obtain ⟨hr, hg, hb, hk⟩ := buttonBit_nibbleOf (f .key) (f .blue) (f .green) (f .red)
  cases b <;> assumption

/-- The raw sample of a button is the complement of its pin (30_encoding.md R94). -/
@[simp] theorem buttonBit_pressed (p : Nibble) (b : ButtonId) : buttonBit (pressed p) b = !buttonBit p b := by
  cases b <;> simp [buttonBit, pressed, ButtonId.toBits]

/-- Reading a line after a write: the level written, or the level that stood there. -/
@[simp] theorem Lines.get_set (l : Lines) (L M : Line) (x : Bool) :
    (l.set L x).get M = if M = L then x else l.get M := by
  cases L <;> cases M <;> rfl

/-- A shift keeps the number of stages (R157). -/
theorem shiftIn_length {c : List (Option Bool)} (d : Bool) (h : c.length = displayWidth) :
    (shiftIn d c).length = displayWidth := by
  simp [shiftIn, displayWidth] at *
  omega

/-- A wire event keeps the number of stages and outputs (R156). -/
theorem Ext.react_lengths (l : Lines) (e : Ext) (ev : WireEvent)
    (hc : e.chain.length = displayWidth) (ho : e.out.length = displayWidth) :
    (e.react l ev).chain.length = displayWidth ∧ (e.react l ev).out.length = displayWidth := by
  unfold Ext.react
  split
  · split <;> simp [shiftIn_length, hc, ho]
  · split <;> simp [hc, ho]
  · simp [zeroChain, ho]
  · exact ⟨hc, ho⟩

/-- An event on OE_N does not touch the external register (R161). -/
@[simp] theorem Ext.react_oeN (l : Lines) (e : Ext) (x : Bool) : e.react l ⟨.oeN, x⟩ = e := by
  cases x <;> rfl

end Sys2Proof.Machine
end

