-- ==== Sys2Proof/Laws/Debounce.lean ====
section
/-! SUPPORT. `update`, said once per branch (40_debounce.md R112). -/

namespace Sys2Proof.Machine

/-- Step 1 leaves the sample in `current` and nothing else changed. -/
theorem recordSample_eq (B : Button) (r : Bool) : recordSample B r = { B with current := r } := by
  unfold recordSample
  split
  · rfl
  · next h =>
    have : B.current = r := by simpa using (Eq.symm (not_not.mp h))
    cases B
    simp_all

/-- Each record of the updated file is the update of that record with its own sample (R118). -/
@[simp] theorem updateAll_get (p : Params) (f : Buttons) (raw : Nibble) (b : ButtonId) :
    (updateAll p f raw).get b = update p.debounceWindow p.holdWindow (f.get b) (buttonBit raw b) := by
  cases b <;> rfl

/-- One more sample at the end of a list is one more update. -/
theorem updates_snoc (dw hw : Nat) (rs : List Bool) (r : Bool) (B : Button) :
    updates dw hw (rs ++ [r]) B = update dw hw (updates dw hw rs B) r := by
  simp [updates, List.foldl_append]

@[simp] theorem updates_nil (dw hw : Nat) (B : Button) : updates dw hw [] B = B := rfl

@[simp] theorem updates_cons (dw hw : Nat) (r : Bool) (rs : List Bool) (B : Button) :
    updates dw hw (r :: rs) B = updates dw hw rs (update dw hw B r) := rfl

end Sys2Proof.Machine
end

