-- ==== Sys2Proof/Laws/Encoding.lean ====
section
/-! SUPPORT. The two fields of a command word (30_encoding.md R81), and the operand fields of each format. -/

namespace Sys2Proof

@[simp] theorem opField_cmdWord (op : BitVec 4) (a : BitVec 17) : opField (cmdWord op a) = op := by
  apply BitVec.eq_of_getLsbD_eq
  intro k hk
  interval_cases k <;> simp [opField, cmdWord]

@[simp] theorem argField_cmdWord (op : BitVec 4) (a : BitVec 17) : argField (cmdWord op a) = a := by
  apply BitVec.eq_of_getLsbD_eq
  intro k hk
  interval_cases k <;> simp [argField, cmdWord]

/-- A word is its two fields. -/
@[simp] theorem cmdWord_fields (c : CmdWord) : cmdWord (opField c) (argField c) = c := by
  apply BitVec.eq_of_getLsbD_eq
  intro k hk
  interval_cases k <;> simp [opField, argField, cmdWord]

@[simp] theorem ButtonId.ofBits_toBits (b : ButtonId) : ButtonId.ofBits b.toBits = b := by
  cases b <;> rfl

@[simp] theorem ButtonId.toBits_ofBits : ∀ b : BitVec 2, (ButtonId.ofBits b).toBits = b := by
  decide

/-- A decoding of a format with must-be-zero bits is a command exactly when they are zero (R90). -/
theorem ifZero_eq_instr {w : Nat} (mbz : BitVec w) (i j : Instr) :
    ifZero mbz i = .instr j ↔ mbz = 0 ∧ i = j := by
  unfold ifZero
  split
  · next h => simp [h]
  · next h => simpa using fun hz => absurd hz h

end Sys2Proof
end

