-- ==== Sys2Proof/Laws/State.lean ====
section
/-! SUPPORT. One lemma per field per shared operation, true by `rfl`, so that no later proof unfolds a record update. -/

namespace Sys2Proof.Machine

/-! `Wire` writes the lines, the external register and the wire history (R9). -/

@[simp] theorem wire_params (L : Line) (x : Bool) (s : State) : (wire L x s).params = s.params := rfl
@[simp] theorem wire_btn (L : Line) (x : Bool) (s : State) : (wire L x s).btn = s.btn := rfl
@[simp] theorem wire_raw (L : Line) (x : Bool) (s : State) : (wire L x s).raw = s.raw := rfl
@[simp] theorem wire_phase (L : Line) (x : Bool) (s : State) : (wire L x s).phase = s.phase := rfl
@[simp] theorem wire_seqOp (L : Line) (x : Bool) (s : State) : (wire L x s).seqOp = s.seqOp := rfl
@[simp] theorem wire_seqVal (L : Line) (x : Bool) (s : State) : (wire L x s).seqVal = s.seqVal := rfl
@[simp] theorem wire_seqI (L : Line) (x : Bool) (s : State) : (wire L x s).seqI = s.seqI := rfl
@[simp] theorem wire_seqStep (L : Line) (x : Bool) (s : State) : (wire L x s).seqStep = s.seqStep := rfl
@[simp] theorem wire_idleTimer (L : Line) (x : Bool) (s : State) : (wire L x s).idleTimer = s.idleTimer := rfl
@[simp] theorem wire_gstate (L : Line) (x : Bool) (s : State) : (wire L x s).gstate = s.gstate := rfl
@[simp] theorem wire_lines (L : Line) (x : Bool) (s : State) : (wire L x s).lines = s.lines.set L x := rfl
@[simp] theorem wire_status (L : Line) (x : Bool) (s : State) : (wire L x s).status = s.status := rfl
@[simp] theorem wire_lcPending (L : Line) (x : Bool) (s : State) : (wire L x s).lcPending = s.lcPending := rfl
@[simp] theorem wire_edgePending (L : Line) (x : Bool) (s : State) : (wire L x s).edgePending = s.edgePending := rfl
@[simp] theorem wire_intcfg (L : Line) (x : Bool) (s : State) : (wire L x s).intcfg = s.intcfg := rfl
@[simp] theorem wire_pin (L : Line) (x : Bool) (s : State) : (wire L x s).pin = s.pin := rfl
@[simp] theorem wire_wakeLatch (L : Line) (x : Bool) (s : State) : (wire L x s).wakeLatch = s.wakeLatch := rfl
@[simp] theorem wire_ext (L : Line) (x : Bool) (s : State) : (wire L x s).ext = s.ext.react s.lines ⟨L, x⟩ := rfl
@[simp] theorem wire_trace (L : Line) (x : Bool) (s : State) : (wire L x s).trace = s.trace ++ [⟨L, x⟩] := rfl
@[simp] theorem wire_cmds (L : Line) (x : Bool) (s : State) : (wire L x s).cmds = s.cmds := rfl
@[simp] theorem wire_agenda (L : Line) (x : Bool) (s : State) : (wire L x s).agenda = s.agenda := rfl

/-! Sleep entry (R184). -/

@[simp] theorem sleepEntry_params (s : State) : (sleepEntry s).params = s.params := rfl
@[simp] theorem sleepEntry_btn (s : State) : (sleepEntry s).btn = s.btn := rfl
@[simp] theorem sleepEntry_raw (s : State) : (sleepEntry s).raw = s.raw := rfl
@[simp] theorem sleepEntry_phase (s : State) : (sleepEntry s).phase = s.phase := rfl
@[simp] theorem sleepEntry_seqOp (s : State) : (sleepEntry s).seqOp = s.seqOp := rfl
@[simp] theorem sleepEntry_seqVal (s : State) : (sleepEntry s).seqVal = s.seqVal := rfl
@[simp] theorem sleepEntry_seqI (s : State) : (sleepEntry s).seqI = s.seqI := rfl
@[simp] theorem sleepEntry_seqStep (s : State) : (sleepEntry s).seqStep = s.seqStep := rfl
@[simp] theorem sleepEntry_idleTimer (s : State) : (sleepEntry s).idleTimer = s.idleTimer := rfl
@[simp] theorem sleepEntry_gstate (s : State) : (sleepEntry s).gstate = .asleep := rfl
@[simp] theorem sleepEntry_lines (s : State) : (sleepEntry s).lines = s.lines.set .oeN true := rfl
@[simp] theorem sleepEntry_status (s : State) : (sleepEntry s).status = 0 := rfl
@[simp] theorem sleepEntry_lcPending (s : State) : (sleepEntry s).lcPending = s.lcPending := rfl
@[simp] theorem sleepEntry_edgePending (s : State) : (sleepEntry s).edgePending = s.edgePending := rfl
@[simp] theorem sleepEntry_intcfg (s : State) : (sleepEntry s).intcfg = s.intcfg := rfl
@[simp] theorem sleepEntry_pin (s : State) : (sleepEntry s).pin = s.pin := rfl
@[simp] theorem sleepEntry_wakeLatch (s : State) : (sleepEntry s).wakeLatch = s.wakeLatch := rfl
@[simp] theorem sleepEntry_ext (s : State) : (sleepEntry s).ext = s.ext := rfl
@[simp] theorem sleepEntry_trace (s : State) : (sleepEntry s).trace = s.trace ++ [⟨.oeN, true⟩] := rfl
@[simp] theorem sleepEntry_cmds (s : State) : (sleepEntry s).cmds = s.cmds := rfl
@[simp] theorem sleepEntry_agenda (s : State) : (sleepEntry s).agenda = s.agenda := rfl

/-! The handler (R219). -/

@[simp] theorem takeInterrupt_params (s : State) : (takeInterrupt s).params = s.params := rfl
@[simp] theorem takeInterrupt_btn (s : State) : (takeInterrupt s).btn = s.btn := rfl
@[simp] theorem takeInterrupt_raw (s : State) : (takeInterrupt s).raw = s.raw := rfl
@[simp] theorem takeInterrupt_phase (s : State) : (takeInterrupt s).phase = s.phase := rfl
@[simp] theorem takeInterrupt_seqOp (s : State) : (takeInterrupt s).seqOp = s.seqOp := rfl
@[simp] theorem takeInterrupt_seqVal (s : State) : (takeInterrupt s).seqVal = s.seqVal := rfl
@[simp] theorem takeInterrupt_seqI (s : State) : (takeInterrupt s).seqI = s.seqI := rfl
@[simp] theorem takeInterrupt_seqStep (s : State) : (takeInterrupt s).seqStep = s.seqStep := rfl
@[simp] theorem takeInterrupt_idleTimer (s : State) : (takeInterrupt s).idleTimer = s.idleTimer := rfl
@[simp] theorem takeInterrupt_gstate (s : State) : (takeInterrupt s).gstate = s.gstate := rfl
@[simp] theorem takeInterrupt_lines (s : State) : (takeInterrupt s).lines = s.lines := rfl
@[simp] theorem takeInterrupt_status (s : State) : (takeInterrupt s).status = s.status := rfl
@[simp] theorem takeInterrupt_lcPending (s : State) : (takeInterrupt s).lcPending = false := rfl
@[simp] theorem takeInterrupt_edgePending (s : State) : (takeInterrupt s).edgePending = 0 := rfl
@[simp] theorem takeInterrupt_intcfg (s : State) : (takeInterrupt s).intcfg = s.intcfg := rfl
@[simp] theorem takeInterrupt_pin (s : State) : (takeInterrupt s).pin = s.pin := rfl
@[simp] theorem takeInterrupt_wakeLatch (s : State) : (takeInterrupt s).wakeLatch = if s.gstate = .asleep then true else s.wakeLatch := rfl
@[simp] theorem takeInterrupt_ext (s : State) : (takeInterrupt s).ext = s.ext := rfl
@[simp] theorem takeInterrupt_trace (s : State) : (takeInterrupt s).trace = s.trace := rfl
@[simp] theorem takeInterrupt_cmds (s : State) : (takeInterrupt s).cmds = s.cmds := rfl
@[simp] theorem takeInterrupt_agenda (s : State) : (takeInterrupt s).agenda = s.agenda := rfl

/-! RESUME (R190). -/

@[simp] theorem resume_params (s : State) : (resume s).params = s.params := rfl
@[simp] theorem resume_btn (s : State) : (resume s).btn = s.btn := rfl
@[simp] theorem resume_raw (s : State) : (resume s).raw = s.raw := rfl
@[simp] theorem resume_phase (s : State) : (resume s).phase = s.phase := rfl
@[simp] theorem resume_seqOp (s : State) : (resume s).seqOp = s.seqOp := rfl
@[simp] theorem resume_seqVal (s : State) : (resume s).seqVal = s.seqVal := rfl
@[simp] theorem resume_seqI (s : State) : (resume s).seqI = s.seqI := rfl
@[simp] theorem resume_seqStep (s : State) : (resume s).seqStep = s.seqStep := rfl
@[simp] theorem resume_idleTimer (s : State) : (resume s).idleTimer = s.params.idleTimeoutTicks := rfl
@[simp] theorem resume_gstate (s : State) : (resume s).gstate = .active := rfl
@[simp] theorem resume_lines (s : State) : (resume s).lines = s.lines.set .oeN false := rfl
@[simp] theorem resume_status (s : State) : (resume s).status = s.status := rfl
@[simp] theorem resume_lcPending (s : State) : (resume s).lcPending = s.lcPending := rfl
@[simp] theorem resume_edgePending (s : State) : (resume s).edgePending = s.edgePending := rfl
@[simp] theorem resume_intcfg (s : State) : (resume s).intcfg = s.intcfg := rfl
@[simp] theorem resume_pin (s : State) : (resume s).pin = s.pin := rfl
@[simp] theorem resume_wakeLatch (s : State) : (resume s).wakeLatch = false := rfl
@[simp] theorem resume_ext (s : State) : (resume s).ext = s.ext := rfl
@[simp] theorem resume_trace (s : State) : (resume s).trace = s.trace ++ [⟨.oeN, false⟩] := rfl
@[simp] theorem resume_cmds (s : State) : (resume s).cmds = s.cmds := rfl
@[simp] theorem resume_agenda (s : State) : (resume s).agenda = s.agenda := rfl

/-! PINCHG (R213). -/

@[simp] theorem pinChange_params (p : Nibble) (s : State) : (pinChange p s).params = s.params := rfl
@[simp] theorem pinChange_btn (p : Nibble) (s : State) : (pinChange p s).btn = s.btn := rfl
@[simp] theorem pinChange_raw (p : Nibble) (s : State) : (pinChange p s).raw = s.raw := rfl
@[simp] theorem pinChange_phase (p : Nibble) (s : State) : (pinChange p s).phase = s.phase := rfl
@[simp] theorem pinChange_seqOp (p : Nibble) (s : State) : (pinChange p s).seqOp = s.seqOp := rfl
@[simp] theorem pinChange_seqVal (p : Nibble) (s : State) : (pinChange p s).seqVal = s.seqVal := rfl
@[simp] theorem pinChange_seqI (p : Nibble) (s : State) : (pinChange p s).seqI = s.seqI := rfl
@[simp] theorem pinChange_seqStep (p : Nibble) (s : State) : (pinChange p s).seqStep = s.seqStep := rfl
@[simp] theorem pinChange_idleTimer (p : Nibble) (s : State) : (pinChange p s).idleTimer = s.idleTimer := rfl
@[simp] theorem pinChange_gstate (p : Nibble) (s : State) : (pinChange p s).gstate = s.gstate := rfl
@[simp] theorem pinChange_lines (p : Nibble) (s : State) : (pinChange p s).lines = s.lines := rfl
@[simp] theorem pinChange_status (p : Nibble) (s : State) : (pinChange p s).status = s.status := rfl
@[simp] theorem pinChange_lcPending (p : Nibble) (s : State) : (pinChange p s).lcPending = true := rfl
@[simp] theorem pinChange_edgePending (p : Nibble) (s : State) : (pinChange p s).edgePending = s.edgePending ||| selectedEdges s.pin p (edgeSel s.intcfg) := rfl
@[simp] theorem pinChange_intcfg (p : Nibble) (s : State) : (pinChange p s).intcfg = s.intcfg := rfl
@[simp] theorem pinChange_pin (p : Nibble) (s : State) : (pinChange p s).pin = p := rfl
@[simp] theorem pinChange_wakeLatch (p : Nibble) (s : State) : (pinChange p s).wakeLatch = s.wakeLatch := rfl
@[simp] theorem pinChange_ext (p : Nibble) (s : State) : (pinChange p s).ext = s.ext := rfl
@[simp] theorem pinChange_trace (p : Nibble) (s : State) : (pinChange p s).trace = s.trace := rfl
@[simp] theorem pinChange_cmds (p : Nibble) (s : State) : (pinChange p s).cmds = s.cmds := rfl
@[simp] theorem pinChange_agenda (p : Nibble) (s : State) : (pinChange p s).agenda = s.agenda := rfl

/-! POR: the fields of the model stay, the rest is the power-on state (R250). -/

@[simp] theorem powerCycle_params (p : Nibble) (s : State) : (powerCycle p s).params = s.params := rfl
@[simp] theorem powerCycle_btn (p : Nibble) (s : State) : (powerCycle p s).btn = (State.powerOn s.params p).btn := rfl
@[simp] theorem powerCycle_raw (p : Nibble) (s : State) : (powerCycle p s).raw = (State.powerOn s.params p).raw := rfl
@[simp] theorem powerCycle_phase (p : Nibble) (s : State) : (powerCycle p s).phase = (State.powerOn s.params p).phase := rfl
@[simp] theorem powerCycle_seqOp (p : Nibble) (s : State) : (powerCycle p s).seqOp = (State.powerOn s.params p).seqOp := rfl
@[simp] theorem powerCycle_seqVal (p : Nibble) (s : State) : (powerCycle p s).seqVal = (State.powerOn s.params p).seqVal := rfl
@[simp] theorem powerCycle_seqI (p : Nibble) (s : State) : (powerCycle p s).seqI = (State.powerOn s.params p).seqI := rfl
@[simp] theorem powerCycle_seqStep (p : Nibble) (s : State) : (powerCycle p s).seqStep = (State.powerOn s.params p).seqStep := rfl
@[simp] theorem powerCycle_idleTimer (p : Nibble) (s : State) : (powerCycle p s).idleTimer = (State.powerOn s.params p).idleTimer := rfl
@[simp] theorem powerCycle_gstate (p : Nibble) (s : State) : (powerCycle p s).gstate = (State.powerOn s.params p).gstate := rfl
@[simp] theorem powerCycle_lines (p : Nibble) (s : State) : (powerCycle p s).lines = (State.powerOn s.params p).lines := rfl
@[simp] theorem powerCycle_status (p : Nibble) (s : State) : (powerCycle p s).status = (State.powerOn s.params p).status := rfl
@[simp] theorem powerCycle_lcPending (p : Nibble) (s : State) : (powerCycle p s).lcPending = (State.powerOn s.params p).lcPending := rfl
@[simp] theorem powerCycle_edgePending (p : Nibble) (s : State) : (powerCycle p s).edgePending = (State.powerOn s.params p).edgePending := rfl
@[simp] theorem powerCycle_intcfg (p : Nibble) (s : State) : (powerCycle p s).intcfg = (State.powerOn s.params p).intcfg := rfl
@[simp] theorem powerCycle_pin (p : Nibble) (s : State) : (powerCycle p s).pin = p := rfl
@[simp] theorem powerCycle_wakeLatch (p : Nibble) (s : State) : (powerCycle p s).wakeLatch = (State.powerOn s.params p).wakeLatch := rfl
@[simp] theorem powerCycle_ext (p : Nibble) (s : State) : (powerCycle p s).ext = (State.powerOn s.params p).ext := rfl
@[simp] theorem powerCycle_trace (p : Nibble) (s : State) : (powerCycle p s).trace = (State.powerOn s.params p).trace := rfl
@[simp] theorem powerCycle_cmds (p : Nibble) (s : State) : (powerCycle p s).cmds = s.cmds := rfl
@[simp] theorem powerCycle_agenda (p : Nibble) (s : State) : (powerCycle p s).agenda = s.agenda := rfl

@[simp] theorem delay_eq (s : State) : delay s = s := rfl

end Sys2Proof.Machine
end

