-- ==== Sys2Proof/Laws/Ops.lean ====
section
/-! SUPPORT. What each shared operation and each command can do, said once: the provers cite these and do not unfold
the operations. -/

namespace Sys2Proof.Machine

theorem cmdReady_iff (s : State) : cmdReady s = true ↔ s.gstate = .active ∧ s.seqOp = .idle := by
  simp [cmdReady]

theorem resumeEnabled_iff (s : State) : resumeEnabled s = true ↔ s.gstate = .asleep ∧ s.wakeLatch = true := by
  simp [resumeEnabled]

/-- A ready command in an accepted phase runs its effect. -/
theorem accepting_ready {ps : List (BitVec 2)} {f : State → Host.Outcome State Fault Refusal} {s : State}
    (hr : cmdReady s = true) (hp : ps.contains s.phase = true) : accepting ps f s = f s := by
  simp only [accepting, hr, hp, ↓reduceIte]

/-- A ready command in another phase is refused (R91). -/
theorem accepting_outOfPhase {ps : List (BitVec 2)} {f : State → Host.Outcome State Fault Refusal} {s : State}
    (hr : cmdReady s = true) (hp : ps.contains s.phase = false) :
    accepting ps f s = .refused (.outOfPhase s.phase) := by
  simp only [accepting, hr, hp, ↓reduceIte, Bool.false_eq_true]

/-- A command that is not accepted yet has no effect (R80). -/
theorem accepting_held {ps : List (BitVec 2)} {f : State → Host.Outcome State Fault Refusal} {s : State}
    (hr : cmdReady s = false) : accepting ps f s = .next s := by
  simp [accepting, hr]

/-- Inversion: a command that answers a next state was held, or ran its effect in an accepted phase. -/
theorem accepting_next {ps : List (BitVec 2)} {f : State → Host.Outcome State Fault Refusal} {s t : State}
    (h : accepting ps f s = .next t) :
    (cmdReady s = false ∧ t = s) ∨ (cmdReady s = true ∧ ps.contains s.phase = true ∧ f s = .next t) := by
  unfold accepting at h
  split at h
  · next hr =>
    split at h
    · next hp => exact .inr ⟨hr, hp, h⟩
    · cases h
  · next hr =>
    cases h
    exact .inl ⟨by simpa using hr, rfl⟩

/-- A ready command of the application update in phase 0 or 2 runs its effect (10_state.md R28). -/
theorem accepting_app {f : State → Host.Outcome State Fault Refusal} {s : State} (hr : cmdReady s = true)
    (hp : s.phase = 0 ∨ s.phase = 2) : accepting appPhases f s = f s :=
  accepting_ready hr (by rcases hp with hp | hp <;> rw [hp] <;> rfl)

/-- The idle tick on a positive timer (R183). -/
theorem idleTick_succ {s : State} {k : Nat} (h : s.idleTimer = k + 1) :
    idleTick s = .next
      { (if k = 0 then sleepEntry { s with idleTimer := k } else { s with idleTimer := k }) with phase := 0 } := by
  unfold idleTick
  rw [h]

/-- The idle tick on a timer at zero (U5). -/
theorem idleTick_zero {s : State} (h : s.idleTimer = 0) : idleTick s = .refused .idleUnderflow := by
  unfold idleTick
  rw [h]

/-- With a turn on the agenda, the step takes it (R69). -/
theorem step_agenda {s : State} {u : Turn} {us : List Turn} (h : s.agenda = u :: us) :
    step s = takeTurn u { s with agenda := us } := by
  unfold step nextStep
  rw [h]

/-- A ready block that is presented a command's word runs the command (R80). -/
theorem takeCommand_instr {s : State} {w : CmdWord} {ws : List CmdWord} {i : Instr} (hr : cmdReady s = true)
    (hc : s.cmds = w :: ws) (hd : decode w = .instr i) : takeCommand s = exec i { s with cmds := ws } := by
  simp only [takeCommand, hr, hc, hd, ↓reduceIte]

/-- A block that is not ready leaves the presented word alone (R82). -/
theorem takeCommand_held {s : State} (hr : cmdReady s = false) : takeCommand s = .next s := by
  simp only [takeCommand, hr, ↓reduceIte, Bool.false_eq_true]

/-- Inversion of a wire event on OE_N: only the lines and the history change. -/
theorem wire_oeN (x : Bool) (s : State) :
    wire .oeN x s = { s with lines := { s.lines with oeN := x }, trace := s.trace ++ [⟨.oeN, x⟩] } := by
  simp [wire, Lines.set]

/-- Inversion of the idle tick: the timer was positive, and the state is the decremented one or the one after
sleep entry (R183). -/
theorem idleTick_next {s t : State} (h : idleTick s = .next t) :
    ∃ k, s.idleTimer = k + 1 ∧
      t = { (if k = 0 then sleepEntry { s with idleTimer := k } else { s with idleTimer := k }) with phase := 0 } := by
  unfold idleTick at h
  split at h
  · cases h
  · next k hk =>
    cases h
    exact ⟨k, hk, rfl⟩

/-- What a command that answers a next state did: nothing, because it was held, or its own effect in a phase that
accepts it. Every invariant of the commands goes through this. -/
theorem exec_next {i : Instr} {s t : State} (h : exec i s = .next t) :
    (cmdReady s = false ∧ t = s) ∨
    (cmdReady s = true ∧ i.acceptedIn s.phase = true ∧
      match i with
      | .sample => t = { s with raw := pressed s.pin, phase := 1 }
      | .deb => t = { s with btn := updateAll s.params s.btn s.raw, phase := 2 }
      | .clrr b => t = { s with btn := s.btn.set b { s.btn.get b with risingEdge := false } }
      | .clrf b => t = { s with btn := s.btn.set b { s.btn.get b with fallingEdge := false } }
      | .oe f => t = wire .oeN (!f) s
      | .srrst => t = { s with seqOp := .srrst, seqStep := 0 }
      | .write v => t = { s with seqOp := .write, seqVal := v, seqI := 16, seqStep := 0 }
      | .status v => t = { s with status := v }
      | .gov true => t = { s with idleTimer := s.params.idleTimeoutTicks, phase := 0 }
      | .gov false => ∃ k, s.idleTimer = k + 1 ∧ t =
          { (if k = 0 then sleepEntry { s with idleTimer := k } else { s with idleTimer := k }) with phase := 0 }
      | .cfgint c => t = { s with intcfg := c }) := by
  rcases i with _ | _ | b | b | f | _ | v | v | f | c <;>
    simp only [exec, execSample, execDeb, execClrr, execClrf, execOe, execSrrst, execWrite, execStatus, execGov,
      execCfgint] at h <;>
    rcases accepting_next h with ⟨hr, rfl⟩ | ⟨hr, hp, he⟩ <;>
    first
    | exact .inl ⟨hr, rfl⟩
    | refine .inr ⟨hr, by simpa [appPhases, Instr.acceptedIn] using hp, ?_⟩
  case gov.inr => cases f <;> simp at he <;> first | exact idleTick_next he | exact he.symm
  all_goals (cases he; rfl)

/-- What a micro-step that answers a next state did (R146): one row of the table, or nothing while IDLE. -/
theorem ustep_next {s t : State} (h : ustep s = .next t) :
    (s.seqOp = .idle ∧ t = s) ∨
    (s.seqOp = .write ∧
      ((s.seqStep.toNat = 0 ∧ s.seqI.toNat < displayWidth ∧
          t = { wire .data (displayBit s.seqVal s.seqI) s with seqStep := 1 }) ∨
        (s.seqStep.toNat = 1 ∧ t = { wire .clk true s with seqStep := 2 }) ∨
        (s.seqStep.toNat = 2 ∧ t = { s with seqStep := 3 }) ∨
        (s.seqStep.toNat = 3 ∧ t = { wire .clk false s with seqStep := 4 }) ∨
        (s.seqStep.toNat = 4 ∧ s.seqI = 0 ∧ t = { s with seqStep := 5 }) ∨
        (s.seqStep.toNat = 4 ∧ s.seqI ≠ 0 ∧ t = { s with seqI := s.seqI - 1, seqStep := 0 }) ∨
        (s.seqStep.toNat = 5 ∧ t = { wire .latch true s with seqStep := 6 }) ∨
        (s.seqStep.toNat = 6 ∧ t = { s with seqStep := 7 }) ∨
        (s.seqStep.toNat = 7 ∧ t = { wire .latch false s with seqStep := 8 }) ∨
        (s.seqStep.toNat = 8 ∧ t = { s with seqOp := .idle, seqStep := 0, seqI := 0 }))) ∨
    (s.seqOp = .srrst ∧
      ((s.seqStep.toNat = 0 ∧ t = { wire .rstN false s with seqStep := 1 }) ∨
        (s.seqStep.toNat = 1 ∧ t = { s with seqStep := 2 }) ∨
        (s.seqStep.toNat = 2 ∧ t = { wire .rstN true s with seqOp := .idle, seqStep := 0 }))) := by
  unfold ustep at h
  split at h
  · next ho =>
    cases h
    exact .inl ⟨ho, rfl⟩
  · next ho =>
    refine .inr (.inl ⟨ho, ?_⟩)
    unfold writeRow at h
    split at h
    case h_1 hs =>
      split at h
      · next hi =>
        cases h
        exact .inl ⟨hs, hi, rfl⟩
      · cases h
    case h_5 hs =>
      split at h <;> cases h <;> simp_all
    all_goals first | (cases h; done) | (cases h; simp_all)
  · next ho =>
    refine .inr (.inr ⟨ho, ?_⟩)
    unfold srrstRow at h
    split at h
    all_goals first | (cases h; done) | (cases h; simp_all)

/-- What a turn that answers a next state did. -/
theorem takeTurn_next {u : Turn} {s t : State} (h : takeTurn u s = .next t) :
    t = s ∨
    (∃ i w ws, u = .command ∧ cmdReady s = true ∧ s.cmds = w :: ws ∧ decode w = .instr i ∧
      exec i { s with cmds := ws } = .next t) ∨
    (u = .ustep ∧ ustep s = .next t) ∨
    (u = .resume ∧ resumeEnabled s = true ∧ t = resume s) ∨
    (u = .irq ∧ irqLine s = true ∧ t = takeInterrupt s) ∨
    (∃ p, u = .pinchg p ∧ p ≠ s.pin ∧ t = pinChange p s) ∨
    (∃ p, u = .por p ∧ t = powerCycle p s) := by
  unfold takeTurn at h
  split at h
  · unfold takeCommand at h
    split at h
    · next hr =>
      split at h
      · cases h
        exact .inl rfl
      · next w ws hc =>
        split at h
        · next i hd => exact .inr (.inl ⟨i, w, ws, rfl, hr, hc, hd, h⟩)
        · cases h
    · cases h
      exact .inl rfl
  · exact .inr (.inr (.inl ⟨rfl, h⟩))
  · injection h with h
    split at h
    · next he => exact .inr (.inr (.inr (.inl ⟨rfl, he, h.symm⟩)))
    · exact .inl h.symm
  · injection h with h
    split at h
    · next he => exact .inr (.inr (.inr (.inr (.inl ⟨rfl, he, h.symm⟩))))
    · exact .inl h.symm
  · next p =>
    injection h with h
    split at h
    · exact .inl h.symm
    · next he => exact .inr (.inr (.inr (.inr (.inr (.inl ⟨p, rfl, he, h.symm⟩)))))
  · next p =>
    injection h with h
    exact .inr (.inr (.inr (.inr (.inr (.inr ⟨p, rfl, h.symm⟩)))))

/-- What a step that answers a next state did: it waited, or it took the turn at the head of the agenda, or with an
empty agenda one turn of its own. -/
theorem step_next {s t : State} (h : step s = .next t) :
    t = s ∨ (∃ u us, s.agenda = u :: us ∧ takeTurn u { s with agenda := us } = .next t) ∨
      (∃ u, s.agenda = [] ∧ fairTurn s = some u ∧ takeTurn u s = .next t) := by
  unfold step nextStep at h
  split at h
  · next u us ha => exact .inr (.inl ⟨u, us, ha, h⟩)
  · next ha =>
    split at h
    · next u hu => exact .inr (.inr ⟨u, ha, hu, h⟩)
    · cases h
      exact .inl rfl

/-- How an invariant of the machine is proved once: it ignores the agenda, and every turn keeps it. -/
theorem step_keeps {P : State → Prop} (hagenda : ∀ s us, P s → P { s with agenda := us })
    (hturn : ∀ u s t, P s → takeTurn u s = .next t → P t) {s t : State} (hs : P s) (h : step s = .next t) :
    P t := by
  rcases step_next h with rfl | ⟨u, us, -, hu⟩ | ⟨u, -, -, hu⟩
  · exact hs
  · exact hturn u _ t (hagenda s us hs) hu
  · exact hturn u s t hs hu

end Sys2Proof.Machine
end

