-- ==== Sys2Proof/Laws/PerInstr.lean ====
section
/-! SUPPORT. A family of statements about every command as syntax: its word matches the row of the opcode map
(30_encoding.md R89). -/

namespace Sys2Proof.Laws.TableRow

/-- The `match` column of R89. -/
def rowMatch : Instr → CmdWord
  | .sample => 0x020000
  | .deb => 0x040000
  | .clrr _ => 0x060000
  | .clrf _ => 0x080000
  | .oe _ => 0x0A0000
  | .srrst => 0x0C0000
  | .write _ => 0x0E0000
  | .status _ => 0x100000
  | .gov _ => 0x120000
  | .cfgint _ => 0x140000

/-- The `mask` column of R89. -/
def rowMask : Instr → CmdWord
  | .sample | .deb | .srrst => 0x1FFFFF
  | .clrr _ | .clrf _ => 0x1FFFFC
  | .oe _ | .gov _ => 0x1FFFFE
  | .write _ => 0x1E0000
  | .status _ => 0x1FFFF0
  | .cfgint _ => 0x1FFE00

/-- The command's word, under its row's mask, is its row's match (R89). -/
def Statement (i : Instr) : Prop := encode i &&& rowMask i = rowMatch i

theorem sample : Statement .sample := by unfold Statement; decide

theorem deb : Statement .deb := by unfold Statement; decide

theorem clrr (b : ButtonId) : Statement (.clrr b) := by cases b <;> (unfold Statement; decide)

theorem clrf (b : ButtonId) : Statement (.clrf b) := by cases b <;> (unfold Statement; decide)

theorem oe (f : Bool) : Statement (.oe f) := by cases f <;> (unfold Statement; decide)

theorem srrst : Statement .srrst := by unfold Statement; decide

theorem write (v : Display) : Statement (.write v) := by
  apply BitVec.eq_of_getLsbD_eq
  intro k hk
  interval_cases k <;> simp [encode, rowMask, rowMatch, cmdWord]

theorem status (s : Nibble) : Statement (.status s) := by
  apply BitVec.eq_of_getLsbD_eq
  intro k hk
  interval_cases k <;> simp [encode, rowMask, rowMatch, cmdWord]

theorem gov (f : Bool) : Statement (.gov f) := by cases f <;> (unfold Statement; decide)

theorem cfgint (c : IntCfg) : Statement (.cfgint c) := by
  apply BitVec.eq_of_getLsbD_eq
  intro k hk
  interval_cases k <;> simp [encode, rowMask, rowMatch, cmdWord]

end Sys2Proof.Laws.TableRow
end

