-- ==== Sys2Proof/Tests/Slice0.lean ====
section
/-! SUPPORT. The model's own tests: the checks refuse ill-formed terms, words written out from the formats decode as the
spec says, one step each on a small state, and a witness for the hypotheses of every statement. Expected values are the
spec's (95_test_vectors.md, or worked out by hand from the rule named). -/

namespace Sys2Proof.Tests

open Sys2Proof.Machine

/-- Small windows and a timeout of four, no button pressed. -/
def tst : State := State.powerOn ⟨3, 5, 8, 4, 8, 1⟩ 0b1111

/-- A field of the next state, if the outcome is one. -/
def after {α : Type} (o : Host.Outcome State Fault Refusal) (f : State → α) : Option α :=
  match o with
  | .next t => some (f t)
  | .fault _ => none
  | .refused _ => none

/-- The refusal, if the outcome is one. -/
def refusal (o : Host.Outcome State Fault Refusal) : Option Refusal :=
  match o with
  | .next _ => none
  | .fault _ => none
  | .refused r => some r

/-! ### Well-formedness (R6, R28, R91) -/

theorem test_params_wf : (Params.mk 1 1 8 1 1 1).wellFormed = true := by decide

theorem test_params_wf_at_the_top : (Params.mk 255 255 8 255 8 9).wellFormed = true := by decide

theorem test_params_debounce_zero : (Params.mk 0 1 8 1 1 1).wellFormed = false := by decide

theorem test_params_debounce_wide : (Params.mk 256 1 8 1 1 1).wellFormed = false := by decide

theorem test_params_hold_zero : (Params.mk 1 0 8 1 1 1).wellFormed = false := by decide

theorem test_params_hold_wide : (Params.mk 1 256 8 1 1 1).wellFormed = false := by decide

theorem test_params_counter_narrow : (Params.mk 1 1 7 1 1 1).wellFormed = false := by decide

theorem test_params_timeout_zero : (Params.mk 1 1 8 0 1 1).wellFormed = false := by decide

theorem test_params_timeout_wide : (Params.mk 1 1 8 2 1 1).wellFormed = false := by decide

theorem test_params_delay_zero : (Params.mk 1 1 8 1 1 0).wellFormed = false := by decide

theorem test_ordered_iteration : wellOrdered 0 [.oe true, .sample, .deb, .clrr .red, .gov true] = true := by decide

theorem test_ordered_refuses_deb_first : wellOrdered 0 [.deb] = false := by decide

theorem test_ordered_refuses_write_in_phase_one : wellOrdered 0 [.sample, .write 0] = false := by decide

/-! ### Decoding: each row's word bit by bit (R83 to R89), and its nearest reserved word (R90) -/

theorem test_decode_sample : decode 0b0001_00000000000000000 = .instr .sample := by decide

theorem test_decode_deb : decode 0b0010_00000000000000000 = .instr .deb := by decide

theorem test_decode_clrr : decode 0b0011_00000000000000010 = .instr (.clrr .blue) := by decide

theorem test_decode_clrf : decode 0b0100_00000000000000011 = .instr (.clrf .key) := by decide

theorem test_decode_oe : decode 0b0101_00000000000000001 = .instr (.oe true) := by decide

theorem test_decode_srrst : decode 0b0110_00000000000000000 = .instr .srrst := by decide

theorem test_decode_write : decode 0b0111_10000000000000001 = .instr (.write 0x10001) := by decide

theorem test_decode_status : decode 0b1000_00000000000001010 = .instr (.status 0b1010) := by decide

theorem test_decode_gov : decode 0b1001_00000000000000000 = .instr (.gov false) := by decide

/-- `lc_en = 1`, `edge_en = 0b0010`, `edge_sel = 0b1000`. -/
theorem test_decode_cfgint : decode 0b1010_00000000_1000_0010_1 = .instr (.cfgint 0b100000101) := by decide

theorem test_reserved_format_n : decode 0b0001_10000000000000000 = .reserved .mustBeZero := by decide

theorem test_reserved_format_b : decode 0b0100_00000000000000100 = .reserved .mustBeZero := by decide

theorem test_reserved_format_f : decode 0b1001_00000000000000010 = .reserved .mustBeZero := by decide

theorem test_reserved_format_s : decode 0b1000_00000000000010000 = .reserved .mustBeZero := by decide

theorem test_reserved_format_c : decode 0b1010_00000001000000000 = .reserved .mustBeZero := by decide

theorem test_reserved_opcodes : decode 0b0000_00000000000000000 = .reserved .opcode ∧
    decode 0b1011_00000000000000000 = .reserved .opcode ∧ decode 0b1111_11111111111111111 = .reserved .opcode := by
  decide

/-- A number that does not fit the 21 wires is no command (log 14). -/
theorem test_word_too_wide : decodeTableWord 24 (2 ^ 21 + 0x020000) = none := by decide

theorem test_table_word : decodeTableWord 24 0x0E0001 = some (.write 1) := by decide

/-! ### One step per command -/

/-- The pins `1110` are red pressed (R94): `raw` is its complement (R110). -/
theorem test_sample_red_pressed :
    after (exec .sample { tst with pin := 0b1110 }) (fun t => (t.raw, t.phase)) = some (0b0001, 1) := by decide

/-- Red flips: its window is loaded and `current` follows at once; key does not flip (R112). -/
theorem test_deb_flip_loads_the_window :
    after (exec .deb { tst with phase := 1, raw := 0b0001 }) (fun t => (t.btn.red, t.btn.key, t.phase))
      = some (⟨true, true, 3, 0, false, false⟩, .zero, 2) := by decide

/-- The last tick of the window triggers a press (R114). -/
theorem test_deb_trigger :
    after (exec .deb { tst with phase := 1, raw := 0b1000, btn.key := ⟨true, true, 1, 0, false, true⟩ })
      (fun t => t.btn.key) = some ⟨true, true, 0, 5, true, false⟩ := by decide

/-- Only the named button's rising flag is cleared (R121). -/
theorem test_clrr_one_flag :
    after (exec (.clrr .green) { tst with
        btn.green := ⟨true, true, 0, 4, true, false⟩, btn.blue := ⟨true, true, 0, 4, true, false⟩ })
      (fun t => (t.btn.green.risingEdge, t.btn.blue.risingEdge)) = some (false, true) := by decide

theorem test_clrf_one_flag :
    after (exec (.clrf .key) { tst with btn.key := ⟨false, false, 0, 4, false, true⟩ }) (fun t => t.btn.key)
      = some ⟨false, false, 0, 4, false, false⟩ := by decide

/-- Enabled drives OE_N low, one event (R140). -/
theorem test_oe_enables :
    after (exec (.oe true) tst) (fun t => (t.lines.oeN, t.trace)) = some (false, [⟨.oeN, false⟩]) := by decide

theorem test_srrst_loads :
    after (exec .srrst tst) (fun t => (t.seqOp, t.seqStep, t.trace)) = some (.srrst, 0, []) := by decide

theorem test_write_loads :
    after (exec (.write 0x10001) tst) (fun t => (t.seqOp, t.seqVal, t.seqI, t.seqStep))
      = some (.write, 0x10001, 16, 0) := by decide

theorem test_status : after (exec (.status 0b0101) tst) (fun t => t.status) = some 0b0101 := by decide

theorem test_gov_reloads :
    after (exec (.gov true) { tst with phase := 2, idleTimer := 1 }) (fun t => (t.idleTimer, t.gstate, t.phase))
      = some (4, .active, 0) := by decide

/-- The tick that reaches zero sleeps: OE_N high, indicators clear (R184). -/
theorem test_gov_sleeps :
    after (exec (.gov false) { tst with phase := 2, idleTimer := 1, status := 0b1111, lines.oeN := false })
      (fun t => (t.idleTimer, t.gstate, t.status, t.lines.oeN, t.trace))
      = some (0, .asleep, 0, true, [⟨.oeN, true⟩]) := by decide

theorem test_cfgint :
    after (exec (.cfgint 0b100000101) tst) (fun t => (lcEn t.intcfg, edgeEn t.intcfg, edgeSel t.intcfg))
      = some (true, 0b0010, 0b1000) := by decide

/-- A step takes the presented word; the word leaves the port. -/
theorem test_step_runs_the_word :
    after (step (tst.withFetchWord 24 0x0A0001)) (fun t => (t.lines.oeN, t.cmds, t.agenda))
      = some (false, [], []) := by decide

theorem test_step_refuses_a_reserved_word :
    refusal (step (tst.withFetchWord 24 0x020001)) = some (.reservedWord .mustBeZero) := by decide

theorem test_deb_out_of_phase : refusal (exec .deb tst) = some (.outOfPhase 0) := by decide

theorem test_gov_at_zero : refusal (exec (.gov false) { tst with phase := 2, idleTimer := 0 })
    = some .idleUnderflow := by decide

/-! ### The transitions no word selects -/

/-- The first shift takes the level DATA has (R146, R157). -/
theorem test_ustep_clock :
    after (ustep { tst with seqOp := .write, seqStep := 1, lines.data := true })
      (fun t => (t.lines.clk, t.ext.chain[0]?, t.ext.chain[1]?)) = some (true, some (some true), some none) := by decide

/-- The latch edge copies the stages (R158). -/
theorem test_ustep_latch :
    after (ustep { tst with seqOp := .write, seqStep := 5, ext := ⟨specified 0x1FFFF, specified 0⟩ })
      (fun t => t.ext.out) = some (specified 0x1FFFF) := by decide

/-- Pressing red with the press edge selected sets both of its flags (R213). -/
theorem test_pinchg :
    after (takeTurn (.pinchg 0b1110) tst) (fun t => (t.lcPending, t.edgePending, t.pin))
      = some (true, 0b0001, 0b1110) := by decide

/-- The handler acknowledges the flag of a source that is not enabled too, and records the wake (R219). -/
theorem test_irq :
    after (takeTurn .irq { tst with intcfg := 1, lcPending := true, edgePending := 0b0100, gstate := .asleep })
      (fun t => (t.lcPending, t.edgePending, t.wakeLatch)) = some (false, 0, true) := by decide

theorem test_resume :
    after (takeTurn .resume { tst with gstate := .asleep, wakeLatch := true, idleTimer := 0 })
      (fun t => (t.gstate, t.idleTimer, t.lines.oeN, t.wakeLatch)) = some (.active, 4, false, false) := by decide

theorem test_por :
    after (takeTurn (.por 0b0111) { tst with seqOp := .write, phase := 2, lines.clk := true, status := 1 })
      (fun t => (t.seqOp, t.phase, t.lines, t.status, t.pin)) = some (.idle, 0, .reset, 0, 0b0111) := by decide

/-- R95's own line. -/
theorem test_read_line : readLine ['W', 'R', 'I', 'T', 'E', ' ', '0', 'x', '1', 'F', 'F', 'F', 'F']
    = some [.command (.write 0x1FFFF)] := by decide

/-- R95's example, in small letters (log 18); a letter past `f` is no digit. -/
theorem test_read_small_digits : readDisplay ['0', 'x', '1', 'a', 'b', 'c', 'd'] = some 0x1ABCD
    ∧ readDisplay ['0', 'x', 'g'] = none := by decide

/-! ### A witness for the hypotheses of each statement

Named after the statement, with the clause where it has several. The invariants are met at reset and, where a clause
speaks of a sequence, of sleep or of a pressed button, in a state there. -/

/-- Asleep with no source enabled. -/
def dozing : State := { tst with gstate := .asleep, idleTimer := 0 }

/-- In the middle of a WRITE, CLK high. -/
def shiftingState : State :=
  { tst with seqOp := .write, seqVal := 0x10001, seqI := 16, seqStep := 2, lines.clk := true, lines.data := true }

theorem witness_encode_of_decode : decode 0x0FABCD = .instr (.write 0x1ABCD) := by decide

theorem witness_word_row : decode 0x120000 = .instr (.gov false) ∧ cmdReady tst = true := by decide

theorem witness_reserved_opcode_low : (0x000000 >>> 17 : CmdWord).toNat = 0 := by decide

theorem witness_reserved_opcode_high : 0xB ≤ (0x160000 >>> 17 : CmdWord).toNat := by decide

theorem witness_reserved_no_row : ∀ i, encode i ≠ 0x020001 := by
  intro i h
  have ho := congrArg opField h
  have ha := congrArg argField h
  cases i <;> simp only [encode, opField_cmdWord, argField_cmdWord] at ho ha <;>
    first
    | exact absurd ho (by decide)
    | exact absurd ha (by decide)

theorem witness_reserved_presented :
    decode 0x020001 = .reserved .mustBeZero ∧ cmdReady { tst with cmds := [0x020001] } = true := by
  decide

theorem witness_step_runs :
    cmdReady { tst with agenda := [.command], cmds := [0x020000] } = true ∧ decode 0x020000 = .instr .sample := by
  decide

theorem witness_step_runs_fair : irqLine { tst with cmds := [0x020000] } = false := by decide

theorem witness_held_asleep : cmdReady { dozing with agenda := [.command] } = false := by decide

theorem witness_held_in_a_sequence : cmdReady { shiftingState with agenda := [.command] } = false := by decide

theorem witness_out_of_phase : ∀ p : BitVec 2, cmdReady { tst with phase := p } = true := by decide

theorem witness_accepted_in_phase : Instr.acceptedIn .deb 1 = true ∧ Instr.acceptedIn (.gov true) 2 = true := by decide

theorem witness_not_accepted : cmdReady { tst with phase := 3 } = true ∧ Instr.acceptedIn (.oe true) 3 = false := by
  decide

theorem witness_completes_app : completes (.oe true) tst ∧ completes (.clrr .key) { tst with phase := 2 }
    ∧ completes (.clrf .red) tst ∧ completes .srrst tst ∧ completes (.write 0) tst ∧ completes (.status 1) tst
    ∧ completes (.cfgint 0x1FF) tst := by
  unfold completes; decide

theorem witness_completes_sample : completes .sample tst := by unfold completes; decide

theorem witness_completes_deb : completes .deb { tst with phase := 1 } := by unfold completes; decide

/-- At the boundary: the timer is 1. -/
theorem witness_completes_gov : completes (.gov true) { tst with phase := 2, idleTimer := 0 }
    ∧ completes (.gov false) { tst with phase := 2, idleTimer := 1 } := by
  unfold completes; decide

theorem witness_turns_leave_the_phase : takeTurn .resume tst = .next tst ∧ takeTurn (.pinchg 0b1111) tst = .next tst
    ∧ takeTurn .irq tst = .next tst ∧ takeTurn .ustep tst = .next tst := ⟨rfl, rfl, rfl, rfl⟩

theorem witness_host_in_order : cmdReady tst = true
    ∧ wellOrdered tst.phase [.oe true, .sample, .deb, .status 1, .gov false, .write 5] = true := by decide

theorem witness_fair_irq : tst.agenda = [] ∧ irqLine { tst with intcfg := 1, lcPending := true } = true := by decide

theorem witness_fair_ustep : irqLine shiftingState = false ∧ shiftingState.seqOp ≠ .idle := by decide

theorem witness_fair_resume : irqLine dozing = false ∧ resumeEnabled { dozing with wakeLatch := true } = true := by
  decide

theorem witness_fair_wait : irqLine tst = false ∧ tst.seqOp = .idle ∧ resumeEnabled tst = false ∧ tst.cmds = [] := by
  decide

theorem witness_turn_not_enabled : tst.seqOp = .idle ∧ tst.wakeLatch = false ∧ irqLine tst = false
    ∧ { tst with agenda := [.pinchg 0b1111] }.agenda = .pinchg tst.pin :: [] ∧ tst.cmds = [] := by decide

theorem witness_writers : exec (.status 3) tst = .next { tst with status := 3 } := rfl

theorem witness_sample : cmdReady tst = true ∧ tst.phase = 0 := by decide

theorem witness_sample_refused : cmdReady { tst with phase := 3 } = true := by decide

theorem witness_deb : cmdReady { tst with phase := 1 } = true := by decide

theorem witness_deb_asleep : dozing.gstate = .asleep := by decide

/-! Debouncer: a released record, a pressed one after its trigger, at windows of 1 and more. -/

theorem witness_debounce_trigger : 1 ≤ 1 ∧ Button.zero.last = Button.zero.current ∧ true ≠ Button.zero.current := by
  decide

theorem witness_hold_trigger : ∃ B : Button, B.last = B.current ∧ B.debounceCounter = 0 ∧ B.holdCounter = 1 :=
  ⟨⟨true, true, 0, 1, false, false⟩, rfl, rfl, rfl⟩

/-- `j = DW`, the last tick at which the change can be reversed. -/
theorem witness_reversed_flip : 1 ≤ 3 ∧ 3 ≤ 3 ∧ Button.zero.last = Button.zero.current := by decide

theorem witness_hold_counter_positive : ∃ B : Button, 1 ≤ B.holdCounter ∧ B.holdCounter ≤ 1 :=
  ⟨⟨true, true, 0, 1, false, false⟩, by decide⟩

theorem witness_hold_counter_zero : Button.zero.holdCounter = 0 := rfl

theorem witness_zero_hold_window : Button.zero.debounceCounter = 0 ∧ Button.zero.holdCounter = 0
    ∧ Button.zero.last = Button.zero.current := by decide

theorem witness_clear_in_both_phases : cmdReady tst = true ∧ cmdReady { tst with phase := 2 } = true := by decide

theorem witness_buttons_inv : ButtonsInv { tst with btn.key := ⟨true, true, 3, 5, true, false⟩ } := by
  intro b
  cases b <;> constructor <;> decide

theorem witness_buttons_inv_step : step tst = .next tst := rfl

/-! Serial driver. -/

theorem witness_load : cmdReady tst = true ∧ exec .srrst tst = .next { tst with seqOp := .srrst, seqStep := 0 } :=
  ⟨rfl, rfl⟩

/-- Each row of the table has a state, the bit index at both ends where the row reads it. -/
theorem witness_write_rows : ∀ k : BitVec 4, { shiftingState with seqStep := k }.seqOp = .write
    ∧ { shiftingState with seqStep := k }.seqI.toNat ≤ 16 ∧ 0 < shiftingState.seqI
    ∧ { shiftingState with seqI := 0 }.seqI = 0 := by decide

/-- The count of micro-steps starts at the top bit. -/
theorem witness_write_count : { shiftingState with seqStep := 0 }.seqOp = .write
    ∧ { shiftingState with seqStep := 0 }.seqI = 16 := by decide

theorem witness_srrst_rows : { tst with seqOp := .srrst, seqStep := 2 }.seqOp = .srrst := rfl

theorem witness_micro_step : ustep shiftingState = .next { shiftingState with seqStep := 3 } := rfl

theorem witness_whole_write : cmdReady tst = true ∧ tst.phase = 0 ∧ tst.lines.clk = false ∧ tst.lines.latch = false
    ∧ tst.lines.rstN = true ∧ tst.ext.chain.length = displayWidth ∧ tst.ext.out.length = displayWidth := by decide

theorem witness_whole_srrst : cmdReady { tst with phase := 2 } = true ∧ { tst with phase := 2 }.lines.rstN = true := by
  decide

theorem witness_lines_inv : LinesInv tst ∧ LinesInv shiftingState
    ∧ LinesInv { tst with seqOp := .srrst, seqStep := 1, lines.rstN := false } := by
  simp [LinesInv, shiftingState, tst, State.powerOn, Lines.reset]

theorem witness_lines_inv_step : step shiftingState = .next { shiftingState with seqStep := 3 } := rfl

theorem witness_ext_inv : ExtInv tst := ⟨rfl, rfl⟩

theorem witness_clock_edge : ∃ (l : Lines) (e : Ext), l.clk = false ∧ l.rstN = true ∧ e.chain.length = displayWidth :=
  ⟨.reset, .unspecified, rfl, rfl, rfl⟩

theorem witness_no_edge : ∃ l : Lines, l.clk = true ∧ l.latch = true ∧ l.rstN = false :=
  ⟨⟨false, true, true, false, false⟩, rfl, rfl, rfl⟩

theorem witness_latch_edge : Lines.reset.latch = false := rfl

theorem witness_leds_dark : tst.lines.oeN = true := rfl

theorem witness_leds_idle : { tst with lines.oeN := false }.lines.oeN = false ∧ tst.seqOp ≠ .write
    ∧ { tst with ext := ⟨specified 0, specified 1⟩ }.ext.out[16]? = some (some false) := by decide

theorem witness_leds_before_the_stretch : { shiftingState with seqStep := 1 }.seqI = 16
    ∧ { shiftingState with seqStep := 1 }.seqStep.toNat < 2 ∧ shiftingState.ext.out[0]? = some none := by decide

theorem witness_leds_after_the_stretch : 6 ≤ { shiftingState with seqStep := 6 }.seqStep.toNat := by decide

theorem witness_leds_in_the_stretch : shiftingState.seqStep.toNat ≤ 5 ∧ 2 ≤ shiftingState.seqStep.toNat
    ∧ { shiftingState with seqI := 15, seqStep := 0 }.seqI.toNat < 16 := by decide

theorem witness_history_inv : HistoryInv tst := rfl

theorem witness_history_inv_with_events :
    HistoryInv { tst with lines.oeN := false, trace := [⟨.oeN, false⟩] } := rfl

/-! Governor. -/

theorem witness_gov : cmdReady { tst with phase := 2 } = true ∧ 2 ≤ { tst with phase := 2 }.idleTimer
    ∧ { tst with idleTimer := 1 }.idleTimer = 1 ∧ { tst with idleTimer := 0 }.idleTimer = 0 := by decide

theorem witness_status : cmdReady { tst with phase := 2 } = true := by decide

theorem witness_timeout : cmdReady tst = true ∧ tst.phase = 0 ∧ 1 ≤ tst.params.idleTimeoutTicks
    ∧ tst.idleTimer = tst.params.idleTimeoutTicks ∧ 3 < tst.params.idleTimeoutTicks := by decide

theorem witness_governor_inv : GovernorInv tst ∧ GovernorInv dozing := by
  constructor <;> constructor <;> decide

theorem witness_asleep : dozing.gstate = .asleep ∧ dozing.seqOp = .idle ∧ dozing.wakeLatch = false := by decide

theorem witness_resume : { dozing with wakeLatch := true }.gstate = .asleep := by decide

theorem witness_resume_enabled : resumeEnabled { dozing with wakeLatch := true } = true := by decide

theorem witness_wake : { dozing with intcfg := 1 }.gstate = .asleep ∧ lcEn { dozing with intcfg := 1 }.intcfg = true
    ∧ (0b0111 : Nibble) ≠ dozing.pin
    ∧ { dozing with agenda := [.pinchg 0b0111, .irq, .resume] }.agenda = .pinchg 0b0111 :: .irq :: .resume :: [] := by
  decide

/-- Two states that agree on the governor and differ in the pins and a button. -/
theorem witness_governor_reads : ∃ s₁ s₂ t₁ : State, s₁.pin ≠ s₂.pin ∧ s₁.btn ≠ s₂.btn ∧ s₁.idleTimer = s₂.idleTimer
    ∧ s₁.params = s₂.params ∧ s₁.gstate = s₂.gstate ∧ s₁.seqOp = s₂.seqOp ∧ s₁.phase = s₂.phase
    ∧ s₁.wakeLatch = s₂.wakeLatch ∧ exec (.gov true) s₁ = .next t₁ :=
  ⟨{ tst with phase := 2 }, { tst with phase := 2, pin := 0, btn.red := ⟨true, true, 0, 5, true, false⟩ },
    { tst with phase := 0 }, by decide, by decide, rfl, rfl, rfl, rfl, rfl, rfl, rfl⟩

/-- A GOV that sleeps, from states that differ in OE_N and in the indicators. -/
theorem witness_governor_reads_sleeping : ∃ s₁ s₂ : State, s₁.lines.oeN ≠ s₂.lines.oeN ∧ s₁.status ≠ s₂.status
    ∧ s₁.idleTimer = s₂.idleTimer ∧ s₁.params = s₂.params ∧ s₁.gstate = s₂.gstate ∧ s₁.seqOp = s₂.seqOp
    ∧ s₁.phase = s₂.phase ∧ s₁.wakeLatch = s₂.wakeLatch
    ∧ after (exec (.gov false) s₁) (fun t => decide (t.gstate ≠ s₁.gstate)) = some true :=
  ⟨{ tst with phase := 2, idleTimer := 1 },
    { tst with phase := 2, idleTimer := 1, lines.oeN := false, status := 1, pin := 0 }, by decide⟩

/-- A quiescent point between the handler and RESUME (log 20). -/
theorem witness_quiescent_formula : Quiescent { dozing with wakeLatch := true }
    ∧ resumeEnabled { dozing with wakeLatch := true } = true := by unfold Quiescent; decide

/-! Interrupts and reset. -/

/-- Red is pressed and key released by the same change, with the release edge selected for key. -/
theorem witness_pin_change : (0b1110 : Nibble) ≠ { tst with pin := 0b0111, intcfg := 0b100000000 }.pin
    ∧ buttonBit 0b0111 .red = true ∧ buttonBit 0b1110 .red = false ∧ buttonBit (edgeSel 0b100000000) .red = false
    ∧ buttonBit 0b0111 .key = false ∧ buttonBit 0b1110 .key = true ∧ buttonBit (edgeSel 0b100000000) .key = true := by
  decide

theorem witness_pin_change_in_two : (0b0001 : Nibble) &&& 0b1010 = 0 := by decide

theorem witness_handler : irqLine { dozing with intcfg := 1, lcPending := true } = true
    ∧ irqLine { tst with intcfg := 0b000000010, edgePending := 1 } = true := by decide

theorem witness_pending_main : takeTurn .resume { tst with lcPending := true } = .next { tst with lcPending := true } :=
  rfl

theorem witness_pending_pinchg : { tst with lcPending := true }.lcPending = true
    ∧ buttonBit { tst with edgePending := 0b1000 }.edgePending .key = true := by decide

theorem witness_handler_while_active : tst.gstate = .active ∧ exec (.status 3) tst = .next { tst with status := 3 } :=
  ⟨rfl, rfl⟩

theorem witness_hung : Hung dozing := by unfold Hung noWakeSource; decide

theorem witness_hung_agenda : ∀ p us, { dozing with agenda := [.irq, .por 0] }.agenda ≠ Turn.por p :: us := by
  intro p us h
  cases h

theorem witness_agenda_turn : { shiftingState with agenda := [.por 0b0111] }.agenda = .por 0b0111 :: [] := rfl

theorem witness_quiescent : Quiescent dozing := by unfold Quiescent; decide

theorem witness_quiescent_moves :
    after (step { dozing with agenda := [.pinchg 0] }) (fun t => decide (t ≠ { dozing with agenda := [] }))
      = some true := by decide

end Sys2Proof.Tests
end

/-! Proofs of the statements about the agents, the quiescent points and the reset state (00_scope.md). -/

namespace Sys2Proof.Machine

/-! ### Wire events

A turn other than a power cycle makes at most one wire event (00_scope.md R9, R11). What it does to the lines, the
external register and the history is said once here, for every command and every micro-step. -/

/-- The lines, the external register and the wire history of `t` are those of `s`. -/
structure SameWires (s t : State) : Prop where
  lines : t.lines = s.lines
  ext : t.ext = s.ext
  trace : t.trace = s.trace

/-- The wires of `t` are those of `s`, or those of `s` after one event. -/
def AtMostOneEvent (s t : State) : Prop := SameWires s t ∨ ∃ L x, SameWires (wire L x s) t

/-- A command makes no wire event, or the one event of OE or of sleep entry (R140, R184). What the inversion says of
a command is a `match` that also carries its hypothesis, so `change` reads the equation off it before `subst`. -/
theorem exec_atMostOneEvent {i : Instr} {s t : State} (h : exec i s = .next t) : AtMostOneEvent s t := by
  rcases exec_next h with ⟨-, rfl⟩ | ⟨-, -, he⟩
  · exact .inl ⟨rfl, rfl, rfl⟩
  · cases i with
    | oe f =>
      change t = _ at he
      subst he
      exact .inr ⟨.oeN, !f, rfl, rfl, rfl⟩
    | gov f =>
      cases f with
      | true =>
        change t = _ at he
        subst he
        exact .inl ⟨rfl, rfl, rfl⟩
      | false =>
        obtain ⟨k, -, rfl⟩ := he
        by_cases hk : k = 0
        · exact .inr ⟨.oeN, true, by constructor <;> simp [hk]⟩
        · exact .inl (by constructor <;> simp [hk])
    | _ =>
      change t = _ at he
      subst he
      exact .inl ⟨rfl, rfl, rfl⟩

/-- A micro-step makes no wire event, or the one event of its row (R146). -/
theorem ustep_atMostOneEvent {s t : State} (h : ustep s = .next t) : AtMostOneEvent s t := by
  rcases ustep_next h with ⟨-, rfl⟩ | ⟨-, hw⟩ | ⟨-, hr⟩
  · exact .inl ⟨rfl, rfl, rfl⟩
  · rcases hw with ⟨-, -, rfl⟩ | ⟨-, rfl⟩ | ⟨-, rfl⟩ | ⟨-, rfl⟩ | ⟨-, -, rfl⟩ | ⟨-, -, rfl⟩ | ⟨-, rfl⟩ | ⟨-, rfl⟩ |
      ⟨-, rfl⟩ | ⟨-, rfl⟩
    · exact .inr ⟨.data, _, rfl, rfl, rfl⟩
    · exact .inr ⟨.clk, true, rfl, rfl, rfl⟩
    · exact .inl ⟨rfl, rfl, rfl⟩
    · exact .inr ⟨.clk, false, rfl, rfl, rfl⟩
    · exact .inl ⟨rfl, rfl, rfl⟩
    · exact .inl ⟨rfl, rfl, rfl⟩
    · exact .inr ⟨.latch, true, rfl, rfl, rfl⟩
    · exact .inl ⟨rfl, rfl, rfl⟩
    · exact .inr ⟨.latch, false, rfl, rfl, rfl⟩
    · exact .inl ⟨rfl, rfl, rfl⟩
  · rcases hr with ⟨-, rfl⟩ | ⟨-, rfl⟩ | ⟨-, rfl⟩
    · exact .inr ⟨.rstN, false, rfl, rfl, rfl⟩
    · exact .inl ⟨rfl, rfl, rfl⟩
    · exact .inr ⟨.rstN, true, rfl, rfl, rfl⟩

/-- A turn is a power cycle or makes at most one wire event. -/
theorem takeTurn_atMostOneEvent {u : Turn} {s t : State} (h : takeTurn u s = .next t) :
    (∃ p, u = .por p ∧ t = powerCycle p s) ∨ AtMostOneEvent s t := by
  rcases takeTurn_next h with rfl | ⟨i, w, ws, -, -, -, -, he⟩ | ⟨-, hu⟩ | ⟨-, -, rfl⟩ | ⟨-, -, rfl⟩ |
    ⟨p, -, -, rfl⟩ | hp
  · exact .inr (.inl ⟨rfl, rfl, rfl⟩)
  · rcases exec_atMostOneEvent he with hsame | ⟨L, x, hsame⟩
    · exact .inr (.inl ⟨hsame.lines, hsame.ext, hsame.trace⟩)
    · exact .inr (.inr ⟨L, x, hsame.lines, hsame.ext, hsame.trace⟩)
  · exact .inr (ustep_atMostOneEvent hu)
  · exact .inr (.inr ⟨.oeN, false, rfl, rfl, rfl⟩)
  · exact .inr (.inl ⟨rfl, rfl, rfl⟩)
  · exact .inr (.inl ⟨rfl, rfl, rfl⟩)
  · exact .inl hp

/-! ### The wire history (R11) -/

/-- Replaying one more event is one more reaction. -/
theorem replay_snoc (evs : List WireEvent) (ev : WireEvent) (p : Lines × Ext) :
    replay (evs ++ [ev]) p =
      ((replay evs p).1.set ev.line ev.level, (replay evs p).2.react (replay evs p).1 ev) := by
  induction evs generalizing p with
  | nil => rfl
  | cons e es ih => exact ih _

/-- The history invariant reads the wires and nothing else. -/
theorem HistoryInv.of_sameWires {s t : State} (hs : HistoryInv s) (h : SameWires s t) : HistoryInv t := by
  obtain ⟨hl, he, ht⟩ := h
  simpa only [HistoryInv, hl, he, ht] using hs

/-- A wire event keeps the history invariant: the event appended is the one the register reacts to. -/
theorem HistoryInv.wire {s : State} (hs : HistoryInv s) (L : Line) (x : Bool) : HistoryInv (wire L x s) := by
  have hreplay : replay s.trace (.reset, .unspecified) = (s.lines, s.ext) := hs.symm
  simp only [HistoryInv, wire_lines, wire_ext, wire_trace, replay_snoc, hreplay]

theorem HistoryInv.of_atMostOneEvent {s t : State} (hs : HistoryInv s) (h : AtMostOneEvent s t) : HistoryInv t := by
  rcases h with h | ⟨L, x, h⟩
  · exact hs.of_sameWires h
  · exact (hs.wire L x).of_sameWires h

/-! ### The invariants at power-on (R250) -/

theorem historyInv_powerOn (p : Params) (pins : Nibble) : HistoryInv (.powerOn p pins) := rfl

theorem extInv_powerOn (p : Params) (pins : Nibble) : ExtInv (.powerOn p pins) := ⟨rfl, rfl⟩

theorem linesInv_powerOn (p : Params) (pins : Nibble) : LinesInv (.powerOn p pins) := ⟨rfl, rfl, rfl⟩

theorem buttonInv_zero (p : Params) : Button.zero.Inv p where
  last_eq := rfl
  exclusive := by decide
  debounce_le := Nat.zero_le _
  hold_le := Nat.zero_le _

theorem buttonsInv_powerOn (p : Params) (pins : Nibble) : ButtonsInv (.powerOn p pins) := by
  intro b
  cases b <;> exact buttonInv_zero p

/-- The timer starts full, so a positive timeout is all the governor needs at power-on. -/
theorem governorInv_powerOn {p : Params} (hp : 1 ≤ p.idleTimeoutTicks) (pins : Nibble) :
    GovernorInv (.powerOn p pins) where
  timeout_pos := hp
  phase_ne := show (0 : BitVec 2) ≠ 3 by decide
  awake := fun _ => ⟨hp, le_rfl, rfl⟩
  sleeping := fun h => nomatch h

/-! ### Every turn keeps the history (R11, R69) -/

/-- A power cycle starts the history again, from the power-on state of the wires. -/
theorem historyInv_powerCycle (p : Nibble) (s : State) : HistoryInv (powerCycle p s) :=
  (historyInv_powerOn s.params p).of_sameWires ⟨rfl, rfl, rfl⟩

/-- Every turn of every agent keeps the history invariant. -/
theorem takeTurn_historyInv {u : Turn} {s t : State} (hs : HistoryInv s) (h : takeTurn u s = .next t) :
    HistoryInv t := by
  rcases takeTurn_atMostOneEvent h with ⟨p, -, rfl⟩ | he
  · exact historyInv_powerCycle p s
  · exact hs.of_atMostOneEvent he

/-- Settles O41: a turn is a power cycle, which starts the history again, or makes at most one wire event, which the
replay follows. -/
theorem externalRegisterIsAFunctionOfTheWires : Obligations.ExternalRegisterIsAFunctionOfTheWires :=
  fun _ _ hs h => step_keeps (fun _ _ h => h) (fun _ _ _ => takeTurn_historyInv) hs h

/-! ### Quiescent points (R13) -/

/-- While asleep, the formula of R13 says that no request is pending. -/
theorem Quiescent.irqLine_eq_false {s : State} (hq : Quiescent s) (ha : s.gstate = .asleep) : irqLine s = false := by
  rcases hq with ⟨-, -, hactive⟩ | ⟨-, hirq⟩
  · cases hactive.symm.trans ha
  · exact hirq

/-- From a state asleep and IDLE with no wake recorded and no request, a turn that answers a next state passes, or is a
pin change to other levels, or is a power cycle: the inversion of the step with the other agents' transitions ruled
out by their enabling conditions (30_encoding.md R92). -/
theorem takeTurn_next_asleep_quiet {u : Turn} {s t : State} (ha : s.gstate = .asleep) (ho : s.seqOp = .idle)
    (hw : s.wakeLatch = false) (hirq : irqLine s = false) (h : takeTurn u s = .next t) :
    t = s ∨ (∃ p, u = .pinchg p ∧ p ≠ s.pin) ∨ ∃ p, u = .por p := by
  rcases takeTurn_next h with hpass | ⟨i, w, ws, -, hready, -⟩ | ⟨-, hu⟩ | ⟨-, hresume, -⟩ | ⟨-, hrequest, -⟩ |
    ⟨p, hu, hp, -⟩ | ⟨p, hu, -⟩
  · exact .inl hpass
  · cases ha.symm.trans ((cmdReady_iff s).mp hready).1
  · rcases ustep_next hu with ⟨-, hpass⟩ | ⟨hop, -⟩ | ⟨hop, -⟩
    · exact .inl hpass
    · cases ho.symm.trans hop
    · cases ho.symm.trans hop
  · cases hw.symm.trans ((resumeEnabled_iff s).mp hresume).2
  · cases hirq.symm.trans hrequest
  · exact .inr (.inl ⟨p, hu, hp⟩)
  · exact .inr (.inr ⟨p, hu⟩)

/-- Settles O60: the turn is taken from the same state without it, which is as quiet. -/
theorem asleepQuiescentPointMovesOnlyFromOutside : Obligations.AsleepQuiescentPointMovesOnlyFromOutside := by
  intro s t u us hq ha ho hw hagenda hstep hmoved
  rw [step_agenda hagenda] at hstep
  have hirq : irqLine { s with agenda := us } = false := hq.irqLine_eq_false ha
  have hcases := takeTurn_next_asleep_quiet (s := { s with agenda := us }) ha ho hw hirq hstep
  exact hcases.resolve_left hmoved

/-! ### Steps and turns (R69) -/

/-- Settles O8: the model's equation for a step with a turn on the agenda. -/
theorem stepTakesTheTurnOfTheAgenda : Obligations.StepTakesTheTurnOfTheAgenda :=
  fun _ _ _ => step_agenda

/-! ### The parameters and the reset state (R6, R250) -/

theorem one_le_fit (n w : Nat) : 1 ≤ Config.fit n w := Nat.le_add_left 1 _

/-- A fitted number is within its width, as R6 asks. -/
theorem fit_lt_two_pow (n : Nat) {w : Nat} (hw : w ≠ 0) : Config.fit n w < 2 ^ w := by
  have hpow : 1 < 2 ^ w := Nat.one_lt_two_pow hw
  have hmod : n % (2 ^ w - 1) < 2 ^ w - 1 := Nat.mod_lt n (by omega)
  unfold Config.fit
  omega

theorem params_wellFormed : Config.params.wellFormed = true := by
  simp [Params.wellFormed, Config.params, one_le_fit, fit_lt_two_pow]

/-- Settles O58: each invariant holds at power-on, for every pin level, and the parameters are fitted to R6. -/
theorem resetMeetsEveryInvariant : Obligations.ResetMeetsEveryInvariant :=
  ⟨params_wellFormed, buttonsInv_powerOn _ _, linesInv_powerOn _ _, governorInv_powerOn (one_le_fit _ _) _,
    historyInv_powerOn _ _, extInv_powerOn _ _⟩

end Sys2Proof.Machine

/-! Proofs of the statements about the registers, their writers and the iteration order (10_state.md). -/

namespace Sys2Proof.Machine

/-! ### A presented command (R80, R82, R91) -/

/-- Every command is its effect behind `accepting`, with the phases of its row of R28. The effect answers a next state,
except that the idle tick of `GOV 0` may refuse (U5). -/
theorem exec_eq_accepting (i : Instr) (s : State) :
    ∃ ps effect, exec i s = accepting ps effect s ∧ ps.contains s.phase = i.acceptedIn s.phase ∧
      ((∃ t, effect s = .next t) ∨ (i = .gov false ∧ effect s = idleTick s)) := by
  cases i with
  | gov f =>
    simp only [exec, execGov]
    refine ⟨_, _, rfl, by simp [Bool.beq_eq_decide_eq, Instr.acceptedIn], ?_⟩
    cases f with
    | true => exact .inl ⟨_, rfl⟩
    | false => exact .inr ⟨rfl, rfl⟩
  | _ =>
    simp only [exec, execSample, execDeb, execClrr, execClrf, execOe, execSrrst, execWrite, execStatus, execCfgint]
    refine ⟨_, _, rfl, ?_, .inl ?_⟩
    · simp [Bool.beq_eq_decide_eq, Instr.acceptedIn, appPhases]
    · exact ⟨_, rfl⟩

/-- A command presented to a block that is not ready is held (R80, log 11). -/
theorem exec_held {s : State} (hr : cmdReady s = false) (i : Instr) : exec i s = .next s := by
  obtain ⟨ps, effect, he, -, -⟩ := exec_eq_accepting i s
  rw [he, accepting_held hr]

/-- A ready command in a phase its row does not list is refused (R91). -/
theorem exec_outOfPhase {i : Instr} {s : State} (hr : cmdReady s = true) (hp : i.acceptedIn s.phase = false) :
    exec i s = .refused (.outOfPhase s.phase) := by
  obtain ⟨ps, effect, he, hps, -⟩ := exec_eq_accepting i s
  rw [he, accepting_outOfPhase hr (hps.trans hp)]

/-- A ready command in a phase of its row answers a next state, or is a `GOV 0` on a timer at zero (R91, U5). -/
theorem exec_accepted {i : Instr} {s : State} (hr : cmdReady s = true) (hp : i.acceptedIn s.phase = true) :
    (∃ t, exec i s = .next t) ∨ (i = .gov false ∧ s.idleTimer = 0 ∧ exec i s = .refused .idleUnderflow) := by
  obtain ⟨ps, effect, he, hps, heffect⟩ := exec_eq_accepting i s
  rw [he, accepting_ready hr (hps.trans hp)]
  rcases heffect with hnext | ⟨rfl, htick⟩
  · exact .inl hnext
  · rw [htick]
    cases hk : s.idleTimer with
    | zero => exact .inr ⟨rfl, rfl, idleTick_zero hk⟩
    | succ k => exact .inl ⟨_, idleTick_succ hk⟩

/-- A ready command that answers a next state moves the phase as the column "next" of R28's table says. -/
theorem exec_phase {i : Instr} {s t : State} (hr : cmdReady s = true) (h : exec i s = .next t) :
    t.phase = i.phaseAfter s.phase := by
  rcases exec_next h with ⟨hnr, -⟩ | ⟨-, -, he⟩
  · cases hr.symm.trans hnr
  · cases i with
    | gov f =>
      cases f with
      | true =>
        change t = _ at he
        subst he
        rfl
      | false =>
        obtain ⟨k, -, rfl⟩ := he
        rfl
    | _ =>
      change t = _ at he
      subst he
      rfl

/-! ### The writers of each register (R20 to R42) -/

/-- Settles O15: a held command changes nothing, and each command's effect names the registers it writes. -/
theorem eachRegisterHasItsWriters : Obligations.EachRegisterHasItsWriters := by
  intro i s t h
  rcases exec_next h with ⟨-, rfl⟩ | ⟨-, -, he⟩
  · simp
  · cases i with
    | gov f =>
      cases f with
      | true =>
        change t = _ at he
        subst he
        simp
      | false =>
        obtain ⟨k, -, rfl⟩ := he
        by_cases hk : k = 0 <;> simp [hk, Lines.set]
    | oe f =>
      change t = _ at he
      subst he
      simp [Lines.set]
    | _ =>
      change t = _ at he
      subst he
      simp

/-- No command writes the parameters (log 8). -/
theorem exec_params {i : Instr} {s t : State} (h : exec i s = .next t) : t.params = s.params := by
  obtain ⟨-, -, -, -, -, -, -, -, -, -, -, -, -, -, -, -, hparams, -⟩ := eachRegisterHasItsWriters i s t h
  exact hparams

/-! ### Micro-steps (R146 to R149) -/

/-- A micro-step writes the sequencer and the wires, and nothing else (R149). -/
theorem ustep_frame {s t : State} (h : ustep s = .next t) :
    t = { s with
      seqOp := t.seqOp, seqI := t.seqI, seqStep := t.seqStep, lines := t.lines, ext := t.ext, trace := t.trace } := by
  rcases ustep_next h with ⟨-, rfl⟩ | ⟨-, hw⟩ | ⟨-, hr⟩
  · rfl
  · rcases hw with ⟨-, -, rfl⟩ | ⟨-, rfl⟩ | ⟨-, rfl⟩ | ⟨-, rfl⟩ | ⟨-, -, rfl⟩ | ⟨-, -, rfl⟩ | ⟨-, rfl⟩ | ⟨-, rfl⟩ |
      ⟨-, rfl⟩ | ⟨-, rfl⟩ <;> rfl
  · rcases hr with ⟨-, rfl⟩ | ⟨-, rfl⟩ | ⟨-, rfl⟩ <;> rfl

theorem ustep_params {s t : State} (h : ustep s = .next t) : t.params = s.params := by
  rw [ustep_frame h]

theorem ustep_btn {s t : State} (h : ustep s = .next t) : t.btn = s.btn := by
  rw [ustep_frame h]

theorem ustep_phase {s t : State} (h : ustep s = .next t) : t.phase = s.phase := by
  rw [ustep_frame h]

theorem ustep_gstate {s t : State} (h : ustep s = .next t) : t.gstate = s.gstate := by
  rw [ustep_frame h]

/-- The only refusal of a micro-step is the missing row (log 9). -/
theorem ustep_refused {s : State} {r : Refusal} (h : ustep s = .refused r) : r = .noMicroStep := by
  unfold ustep at h
  split at h
  · cases h
  · unfold writeRow at h
    split at h
    case h_1 => split at h <;> cases h; rfl
    case h_5 => split at h <;> cases h
    all_goals cases h
    rfl
  · unfold srrstRow at h
    split at h <;> cases h
    rfl

/-- Micro-steps in a row that answer a next state are the first one and the rest. -/
theorem usteps_succ_next {n : Nat} {s t : State} (h : usteps (n + 1) s = .next t) :
    ∃ u, ustep s = .next u ∧ usteps n u = .next t := by
  unfold usteps at h
  split at h
  · next u hu => exact ⟨u, hu, h⟩
  · cases h
  · cases h

/-- What every micro-step keeps, several in a row keep. -/
theorem usteps_keeps {P : State → Prop} (hstep : ∀ s t, P s → ustep s = .next t → P t) {n : Nat} {s t : State}
    (hs : P s) (h : usteps n s = .next t) : P t := by
  induction n generalizing s with
  | zero =>
    cases h
    exact hs
  | succ n ih =>
    obtain ⟨u, hu, hrest⟩ := usteps_succ_next h
    exact ih (hstep s u hs hu) hrest

theorem usteps_phase {n : Nat} {s t : State} (h : usteps n s = .next t) : t.phase = s.phase :=
  usteps_keeps (P := fun u => u.phase = s.phase) (fun _ _ hu hv => (ustep_phase hv).trans hu) rfl h

theorem usteps_gstate {n : Nat} {s t : State} (h : usteps n s = .next t) : t.gstate = s.gstate :=
  usteps_keeps (P := fun u => u.gstate = s.gstate) (fun _ _ hu hv => (ustep_gstate hv).trans hu) rfl h

theorem usteps_refused {n : Nat} {s : State} {r : Refusal} (h : usteps n s = .refused r) : r = .noMicroStep := by
  induction n generalizing s with
  | zero => cases h
  | succ n ih =>
    unfold usteps at h
    split at h
    · exact ih h
    · cases h
    · next hu =>
      cases h
      exact ustep_refused hu

/-- How many micro-steps end the sequence in progress: five for each bit and four for the latch pulse, or those of the
reset pulse (R146). While a sequence runs it is positive at every position, so zero means IDLE. -/
def microStepsLeft (s : State) : Nat :=
  match s.seqOp with
  | .idle => 0
  | .write => 5 * s.seqI.toNat + (8 - s.seqStep.toNat) + 1
  | .srrst => (2 - s.seqStep.toNat) + 1

theorem microStepsLeft_idle {s : State} (h : s.seqOp = .idle) : microStepsLeft s = 0 := by
  simp [microStepsLeft, h]

theorem microStepsLeft_write {s : State} (h : s.seqOp = .write) :
    microStepsLeft s = 5 * s.seqI.toNat + (8 - s.seqStep.toNat) + 1 := by
  simp [microStepsLeft, h]

theorem microStepsLeft_srrst {s : State} (h : s.seqOp = .srrst) :
    microStepsLeft s = (2 - s.seqStep.toNat) + 1 := by
  simp [microStepsLeft, h]

theorem seqOp_eq_idle_of_microStepsLeft {s : State} (h : microStepsLeft s = 0) : s.seqOp = .idle := by
  cases ho : s.seqOp with
  | idle => rfl
  | write => simp [microStepsLeft_write ho] at h
  | srrst => simp [microStepsLeft_srrst ho] at h

/-- The row that goes on to the next bit takes one off the count: five for the bit, less the four it has taken. -/
theorem microStepsLeft_nextBit {s : State} (ho : s.seqOp = .write) (hs : s.seqStep.toNat = 4) (hi : s.seqI ≠ 0) :
    microStepsLeft { s with seqI := s.seqI - 1, seqStep := 0 } ≤ microStepsLeft s - 1 := by
  have hpred : (s.seqI - 1).toNat + 1 = s.seqI.toNat := by bv_omega
  have hnext : microStepsLeft { s with seqI := s.seqI - 1, seqStep := 0 } = 5 * (s.seqI - 1).toNat + 8 + 1 :=
    microStepsLeft_write ho
  rw [hnext, microStepsLeft_write ho, hs]
  omega

/-- Each micro-step takes at least one off the count. -/
theorem ustep_microStepsLeft {s t : State} (h : ustep s = .next t) : microStepsLeft t ≤ microStepsLeft s - 1 := by
  rcases ustep_next h with ⟨ho, rfl⟩ | ⟨ho, hw⟩ | ⟨ho, hr⟩
  · simp [microStepsLeft_idle ho]
  · rcases hw with ⟨hs, -, rfl⟩ | ⟨hs, rfl⟩ | ⟨hs, rfl⟩ | ⟨hs, rfl⟩ | ⟨hs, -, rfl⟩ | ⟨hs, hi, rfl⟩ | ⟨hs, rfl⟩ |
      ⟨hs, rfl⟩ | ⟨hs, rfl⟩ | ⟨hs, rfl⟩
    on_goal 6 => exact microStepsLeft_nextBit ho hs hi
    all_goals simp [microStepsLeft, ho, hs]
  · rcases hr with ⟨hs, rfl⟩ | ⟨hs, rfl⟩ | ⟨hs, rfl⟩ <;> simp [microStepsLeft, ho, hs]

/-- As many micro-steps as are left end the sequence. -/
theorem usteps_seqOp {n : Nat} {s t : State} (hn : microStepsLeft s ≤ n) (h : usteps n s = .next t) :
    t.seqOp = .idle := by
  induction n generalizing s with
  | zero =>
    cases h
    exact seqOp_eq_idle_of_microStepsLeft (Nat.le_zero.mp hn)
  | succ n ih =>
    obtain ⟨u, hu, hrest⟩ := usteps_succ_next h
    have hleft := ustep_microStepsLeft hu
    exact ih (by omega) hrest

/-- A ready command loads the sequencer for as many micro-steps as it stands for (R145). -/
theorem exec_microStepsLeft {i : Instr} {s t : State} (hr : cmdReady s = true) (h : exec i s = .next t) :
    microStepsLeft t ≤ microSteps i := by
  obtain ⟨-, ho⟩ := (cmdReady_iff s).mp hr
  obtain ⟨-, -, -, hseq, -⟩ := eachRegisterHasItsWriters i s t h
  rcases exec_next h with ⟨hnr, -⟩ | ⟨-, -, he⟩
  · cases hr.symm.trans hnr
  · rcases hseq with ⟨hop, -⟩ | rfl | ⟨v, rfl⟩
    · rw [microStepsLeft_idle (hop.trans ho)]
      exact Nat.zero_le _
    · change t = _ at he
      subst he
      exact Nat.le_refl 3
    · change t = _ at he
      subst he
      exact Nat.le_refl 89

/-! ### The button file (R27, R123, R128) -/

/-- A trigger keeps a record's invariant: it assigns both flags from the one level and reloads the countdown (R114). -/
theorem Button.Inv.trigger {p : Params} {B : Button} (h : B.Inv p) : (trigger p.holdWindow B).Inv p where
  last_eq := h.last_eq
  exclusive := by simp [Machine.trigger]
  debounce_le := h.debounce_le
  hold_le := Nat.le_refl _

theorem Button.Inv.countDebounce {p : Params} {B : Button} (h : B.Inv p) :
    (countDebounce p.holdWindow B).Inv p := by
  have hdec : Button.Inv p { B with debounceCounter := B.debounceCounter - 1 } :=
    { h with debounce_le := (Nat.sub_le _ _).trans h.debounce_le }
  unfold Machine.countDebounce
  dsimp only
  split
  · exact hdec.trigger
  · exact hdec

theorem Button.Inv.countHold {p : Params} {B : Button} (h : B.Inv p) : (countHold p.holdWindow B).Inv p := by
  have hdec : Button.Inv p { B with holdCounter := B.holdCounter - 1 } :=
    { h with hold_le := (Nat.sub_le _ _).trans h.hold_le }
  unfold Machine.countHold
  split
  · dsimp only
    split
    · exact hdec.trigger
    · exact hdec
  · exact h

/-- `update` keeps a record's invariant. The recorded sample may differ from `last`; then the first branch makes them
equal again, and the other two run only where they agree (R112, R123). -/
theorem Button.Inv.update {p : Params} {B : Button} (h : B.Inv p) (r : Bool) :
    (update p.debounceWindow p.holdWindow B r).Inv p := by
  unfold Machine.update advance
  rw [recordSample_eq]
  split
  · exact ⟨rfl, h.exclusive, Nat.le_refl _, h.hold_le⟩
  · next hsame =>
    have hrec : Button.Inv p { B with current := r } := { h with last_eq := (not_not.mp hsame).symm }
    split
    · exact hrec.countDebounce
    · exact hrec.countHold

/-- The invariant of the button file reads the file and the parameters, and nothing else. -/
theorem ButtonsInv.congr {s t : State} (hs : ButtonsInv s) (hb : t.btn = s.btn) (hp : t.params = s.params) :
    ButtonsInv t := by
  simpa only [ButtonsInv, hb, hp] using hs

/-- Writing a record that keeps its invariant keeps that of the file (R20). -/
theorem ButtonsInv.set {s : State} (hs : ButtonsInv s) {b : ButtonId} {B : Button} (hB : B.Inv s.params) :
    ButtonsInv { s with btn := s.btn.set b B } := by
  intro c
  change ((s.btn.set b B).get c).Inv s.params
  rw [Buttons.get_set]
  split
  · exact hB
  · exact hs c

/-- Every command keeps the button records: DEB updates each of them, CLRR and CLRF clear one flag, and the others
leave them (R118, R121, R122). -/
theorem exec_buttonsInv {i : Instr} {s t : State} (hs : ButtonsInv s) (h : exec i s = .next t) : ButtonsInv t := by
  obtain ⟨hbtn, -⟩ := eachRegisterHasItsWriters i s t h
  rcases exec_next h with ⟨-, rfl⟩ | ⟨-, -, he⟩
  · exact hs
  · rcases hbtn with hbtn | rfl | ⟨b, rfl⟩ | ⟨b, rfl⟩
    · exact hs.congr hbtn (exec_params h)
    · change t = _ at he
      subst he
      intro b
      change ((updateAll s.params s.btn s.raw).get b).Inv s.params
      rw [updateAll_get]
      exact (hs b).update _
    · change t = _ at he
      subst he
      exact hs.set { hs b with exclusive := fun hboth => Bool.false_ne_true hboth.1 }
    · change t = _ at he
      subst he
      exact hs.set { hs b with exclusive := fun hboth => Bool.false_ne_true hboth.2 }

/-- Every turn keeps the button records: a power cycle clears them, and no turn but a command writes them. -/
theorem takeTurn_buttonsInv {u : Turn} {s t : State} (hs : ButtonsInv s) (h : takeTurn u s = .next t) :
    ButtonsInv t := by
  rcases takeTurn_next h with rfl | ⟨i, w, ws, -, -, -, -, he⟩ | ⟨-, hu⟩ | ⟨-, -, rfl⟩ | ⟨-, -, rfl⟩ |
    ⟨p, -, -, rfl⟩ | ⟨p, -, rfl⟩
  · exact hs
  · exact exec_buttonsInv (s := { s with cmds := ws }) hs he
  · exact hs.congr (ustep_btn hu) (ustep_params hu)
  · exact hs.congr (resume_btn s) (resume_params s)
  · exact hs.congr (takeInterrupt_btn s) (takeInterrupt_params s)
  · exact hs.congr (pinChange_btn p s) (pinChange_params p s)
  · exact (buttonsInv_powerOn s.params p).congr (powerCycle_btn p s) (powerCycle_params p s)

/-- Settles O26: every turn keeps the records, and a step is a turn or waits. -/
theorem buttonRecordsKeepTheirInvariant : Obligations.ButtonRecordsKeepTheirInvariant :=
  fun _ _ hs h => step_keeps (fun _ _ h => h) (fun _ _ _ => takeTurn_buttonsInv) hs h

/-! ### The phase and the iteration order (R28, R260) -/

/-- The micro-steps, the handler, the return and a pin change leave the phase (R28). -/
theorem takeTurn_phase {u : Turn} {s t : State} (h : takeTurn u s = .next t)
    (hu : u = .ustep ∨ u = .resume ∨ u = .irq ∨ ∃ p, u = .pinchg p) : t.phase = s.phase := by
  rcases takeTurn_next h with rfl | ⟨i, w, ws, rfl, -⟩ | ⟨-, hstep⟩ | ⟨-, -, rfl⟩ | ⟨-, -, rfl⟩ | ⟨p, -, -, rfl⟩ |
    ⟨p, rfl, -⟩
  · rfl
  · simp at hu
  · exact ustep_phase hstep
  · exact resume_phase s
  · exact takeInterrupt_phase s
  · exact pinChange_phase p s
  · simp at hu

/-- A command that `completes` answers a next state: the idle tick on a timer at zero is shut out (U5). -/
theorem exec_of_completes {i : Instr} {s : State} (h : completes i s) : ∃ t, exec i s = .next t := by
  obtain ⟨hr, hp, htimer⟩ := h
  rcases exec_accepted hr hp with hnext | ⟨hi, hzero, -⟩
  · exact hnext
  · have hpos := htimer hi
    omega

/-- Settles O11: the rows of `acceptedIn` and `phaseAfter` are R28's; an accepted command answers a next state, in the
phase of its row. -/
theorem acceptedCommandsCompleteAndMoveThePhase : Obligations.AcceptedCommandsCompleteAndMoveThePhase := by
  refine ⟨?_, ?_, fun i s => exec_outOfPhase, fun u s t => takeTurn_phase, fun p s => rfl⟩
  · intro i p
    cases i <;> simp [Instr.acceptedIn]
  · intro i s hc
    obtain ⟨t, ht⟩ := exec_of_completes hc
    obtain ⟨hr, -, -⟩ := hc
    have hphase := exec_phase hr ht
    refine ⟨t, ht, ?_⟩
    cases i <;> exact hphase

/-- A command run whole that answers a next state is its acceptance and its micro-steps. -/
theorem runWhole_next {i : Instr} {s t : State} (h : runWhole i s = .next t) :
    ∃ u, exec i s = .next u ∧ usteps (microSteps i) u = .next t := by
  unfold runWhole at h
  split at h
  · next u hu => exact ⟨u, hu, h⟩
  · cases h
  · cases h

/-- A host in order: the block sleeps, or it is ready for the commands that are left, in the order of the phases. -/
def InOrder (is : List Instr) (s : State) : Prop :=
  s.gstate = .asleep ∨ (cmdReady s = true ∧ wellOrdered s.phase is = true)

/-- A block that sleeps is not ready (R82). -/
theorem cmdReady_asleep {s : State} (h : s.gstate = .asleep) : cmdReady s = false := by
  simp [cmdReady, h]

/-- In order, the next command is not refused for the phase. -/
theorem InOrder.runWhole_ne_outOfPhase {i : Instr} {is : List Instr} {s : State} (hs : InOrder (i :: is) s)
    (p : BitVec 2) : runWhole i s ≠ .refused (.outOfPhase p) := by
  have hexec : exec i s ≠ .refused (.outOfPhase p) := by
    rcases hs with hasleep | ⟨hr, hord⟩
    · simp [exec_held (cmdReady_asleep hasleep)]
    · have hp : i.acceptedIn s.phase = true := (Bool.and_eq_true_iff.mp hord).1
      rcases exec_accepted hr hp with ⟨t, ht⟩ | ⟨-, -, ht⟩ <;> simp [ht]
  intro h
  unfold runWhole at h
  split at h
  · cases usteps_refused h
  · cases h
  · next hr => exact hexec (hr.trans h)

/-- In order, the next command run whole leaves the host in order for the rest. -/
theorem InOrder.runWhole {i : Instr} {is : List Instr} {s t : State} (hs : InOrder (i :: is) s)
    (h : runWhole i s = .next t) : InOrder is t := by
  obtain ⟨u, hu, hsteps⟩ := runWhole_next h
  rcases hs with hasleep | ⟨hr, hord⟩
  · cases (exec_held (cmdReady_asleep hasleep) i).symm.trans hu
    exact .inl ((usteps_gstate hsteps).trans hasleep)
  · have hrest : wellOrdered (i.phaseAfter s.phase) is = true := (Bool.and_eq_true_iff.mp hord).2
    have hphase : t.phase = i.phaseAfter s.phase := (usteps_phase hsteps).trans (exec_phase hr hu)
    have hidle : t.seqOp = .idle := usteps_seqOp (exec_microStepsLeft hr hu) hsteps
    cases hg : t.gstate with
    | asleep => exact .inl hg
    | active => exact .inr ⟨(cmdReady_iff t).mpr ⟨hg, hidle⟩, hphase ▸ hrest⟩

/-- In order, a list of commands is not refused for the phase. -/
theorem InOrder.runProgram_ne_outOfPhase {is : List Instr} {s : State} (hs : InOrder is s) (p : BitVec 2) :
    runProgram is s ≠ .refused (.outOfPhase p) := by
  induction is generalizing s with
  | nil => exact fun h => nomatch h
  | cons i is ih =>
    unfold runProgram
    split
    · next t ht => exact ih (hs.runWhole ht)
    · exact fun h => nomatch h
    · next r hr => exact fun h => hs.runWhole_ne_outOfPhase p (hr.trans h)

/-- Settles O12: a ready block in the table's order is in order, and each command run whole keeps it so. -/
theorem hostInOrderIsNeverOutOfPhase : Obligations.HostInOrderIsNeverOutOfPhase :=
  fun _ _ hr hord => InOrder.runProgram_ne_outOfPhase (.inr ⟨hr, hord⟩)

end Sys2Proof.Machine

/-! Proof of the statement about the order of steps when nothing is on the agenda (20_memory.md R69). -/

namespace Sys2Proof.Machine

/-! ### The block's own turn (R69, R230) -/

/-- With an empty agenda, the step takes the block's own turn, if it has one. -/
theorem step_own {s : State} {u : Turn} (ha : s.agenda = []) (hu : fairTurn s = some u) : step s = takeTurn u s := by
  simp only [step, nextStep, ha, hu]

/-- With an empty agenda and no turn of its own, the block waits (R230). -/
theorem step_waits {s : State} (ha : s.agenda = []) (hu : fairTurn s = none) : step s = .next s := by
  simp only [step, nextStep, ha, hu]

/-- A request goes before every transition of MAIN. -/
theorem fairTurn_irq {s : State} (hirq : irqLine s = true) : fairTurn s = some .irq := by
  simp [fairTurn, hirq]

theorem fairTurn_ustep {s : State} (hirq : irqLine s = false) (ho : s.seqOp ≠ .idle) : fairTurn s = some .ustep := by
  simp [fairTurn, hirq, ho]

theorem fairTurn_resume {s : State} (hirq : irqLine s = false) (ho : s.seqOp = .idle)
    (hwake : resumeEnabled s = true) : fairTurn s = some .resume := by
  simp [fairTurn, hirq, ho, hwake]

/-- With no request, no sequence and no return, a block that is not ready or is presented no word has no turn. -/
theorem fairTurn_none {s : State} (hirq : irqLine s = false) (ho : s.seqOp = .idle)
    (hwake : resumeEnabled s = false) (hcmd : cmdReady s = false ∨ s.cmds = []) : fairTurn s = none := by
  have hnocmd : (cmdReady s && cmdValid s) = false := by
    rcases hcmd with hready | hcmds
    · simp [hready]
    · simp [cmdValid, hcmds]
  simp [fairTurn, hirq, ho, hwake, hnocmd]

/-- Settles O13: in each case the block's own turn is the one named, and it is enabled. -/
theorem fairOrderAndWaiting : Obligations.FairOrderAndWaiting := by
  intro s ha
  refine ⟨?_, ?_, ?_, ?_⟩
  · intro hirq
    rw [step_own ha (fairTurn_irq hirq), takeTurn, if_pos hirq]
  · intro hirq ho
    exact step_own ha (fairTurn_ustep hirq ho)
  · intro hirq ho hwake
    rw [step_own ha (fairTurn_resume hirq ho hwake), takeTurn, if_pos hwake]
  · intro hirq ho hwake hcmd
    exact step_waits ha (fairTurn_none hirq ho hwake hcmd)

end Sys2Proof.Machine

/-! Proofs of the statements about the command word: the decoder and the encoder are inverse to each other, and the
rows of the opcode map say the same (30_encoding.md R81 to R90). -/

namespace Sys2Proof

/-! ### The formats (R83 to R88)

The operand of a format is the low `w` bits of `arg`, and the bits above it must be zero. -/

/-- Bits `w` and up of `arg` are zero exactly when `arg` is its low `w` bits, extended with zeros. -/
theorem extractLsb'_high_eq_zero_iff {w : Nat} (hw : w ≤ 17) (a : BitVec 17) :
    a.extractLsb' w (17 - w) = 0 ↔ a = (a.extractLsb' 0 w).setWidth 17 := by
  constructor
  · intro h
    apply BitVec.eq_of_getLsbD_eq
    intro k hk
    by_cases hkw : k < w
    · simp [hk, hkw]
    · have hbit := congrArg (·.getLsbD (k - w)) h
      have hpos : w + (k - w) = k := by omega
      simpa [hk, hkw, hpos, show k - w < 17 - w by omega] using hbit
  · intro h
    apply BitVec.eq_of_getLsbD_eq
    intro k hk
    rw [h]
    simp

/-- A format with a `w`-bit operand decodes to a command exactly when `arg` is an operand extended with zeros. -/
theorem ifZero_operand_eq_instr {w : Nat} (hw : w ≤ 17) (a : BitVec 17) (mk : BitVec w → Instr) (i : Instr) :
    ifZero (a.extractLsb' w (17 - w)) (mk (a.extractLsb' 0 w)) = .instr i ↔
      ∃ x : BitVec w, a = x.setWidth 17 ∧ mk x = i := by
  rw [ifZero_eq_instr, extractLsb'_high_eq_zero_iff hw]
  constructor
  · rintro ⟨ha, hi⟩
    exact ⟨_, ha, hi⟩
  · rintro ⟨x, rfl, rfl⟩
    have hx : (x.setWidth 17).extractLsb' 0 w = x := by
      apply BitVec.eq_of_getLsbD_eq
      intro k hk
      simp [hk, show k < 17 by omega]
    rw [hx]
    exact ⟨rfl, rfl⟩

theorem ofBool_getLsbD_zero : ∀ x : BitVec 1, BitVec.ofBool (x.getLsbD 0) = x := by
  decide

theorem decodeN_eq_instr (a : BitVec 17) (i j : Instr) : decodeN a i = .instr j ↔ a = 0 ∧ i = j :=
  ifZero_eq_instr a i j

theorem decodeB_eq_instr (a : BitVec 17) (mk : ButtonId → Instr) (i : Instr) :
    decodeB a mk = .instr i ↔ ∃ b : ButtonId, a = b.toBits.setWidth 17 ∧ mk b = i := by
  refine (ifZero_operand_eq_instr (w := 2) (by decide) a (fun x => mk (.ofBits x)) i).trans ⟨?_, ?_⟩
  · rintro ⟨x, ha, hi⟩
    exact ⟨.ofBits x, by rw [ButtonId.toBits_ofBits, ha], hi⟩
  · rintro ⟨b, ha, hi⟩
    exact ⟨b.toBits, ha, by rw [ButtonId.ofBits_toBits, hi]⟩

theorem decodeF_eq_instr (a : BitVec 17) (mk : Bool → Instr) (i : Instr) :
    decodeF a mk = .instr i ↔ ∃ f : Bool, a = (BitVec.ofBool f).setWidth 17 ∧ mk f = i := by
  have hbit : a.getLsbD 0 = (a.extractLsb' 0 1).getLsbD 0 := by simp
  rw [decodeF, hbit]
  refine (ifZero_operand_eq_instr (w := 1) (by decide) a (fun x => mk (x.getLsbD 0)) i).trans ⟨?_, ?_⟩
  · rintro ⟨x, ha, hi⟩
    exact ⟨x.getLsbD 0, by rw [ha, ofBool_getLsbD_zero], hi⟩
  · rintro ⟨f, ha, hi⟩
    exact ⟨.ofBool f, ha, by simpa using hi⟩

theorem decodeS_eq_instr (a : BitVec 17) (mk : Nibble → Instr) (i : Instr) :
    decodeS a mk = .instr i ↔ ∃ s : Nibble, a = s.setWidth 17 ∧ mk s = i :=
  ifZero_operand_eq_instr (by decide) a mk i

theorem decodeC_eq_instr (a : BitVec 17) (mk : IntCfg → Instr) (i : Instr) :
    decodeC a mk = .instr i ↔ ∃ c : IntCfg, a = c.setWidth 17 ∧ mk c = i :=
  ifZero_operand_eq_instr (by decide) a mk i

/-! ### The decoder and the encoder (R89) -/

/-- The word of a command decodes to it: its opcode selects its row, and its operand is one of the row's format. -/
theorem decode_encode (i : Instr) : decode (encode i) = .instr i := by
  cases i <;> simp only [decode, encode, opField_cmdWord, argField_cmdWord, BitVec.reduceToNat]
  case sample | deb | srrst => exact (decodeN_eq_instr _ _ _).mpr ⟨rfl, rfl⟩
  case clrr b | clrf b => exact (decodeB_eq_instr _ _ _).mpr ⟨b, rfl, rfl⟩
  case oe f | gov f => exact (decodeF_eq_instr _ _ _).mpr ⟨f, rfl, rfl⟩
  case status v => exact (decodeS_eq_instr _ _ _).mpr ⟨v, rfl, rfl⟩
  case cfgint c => exact (decodeC_eq_instr _ _ _).mpr ⟨c, rfl, rfl⟩

/-- A word is the word of its operand field and of any opcode that is its own. -/
theorem cmdWord_argField {c : CmdWord} {op : BitVec 4} (h : (opField c).toNat = op.toNat) :
    cmdWord op (argField c) = c := by
  rw [← BitVec.eq_of_toNat_eq h, cmdWord_fields]

/-- A word that decodes to a command is the word of that command. -/
theorem encode_of_decode {c : CmdWord} {i : Instr} (h : decode c = .instr i) : encode i = c := by
  unfold decode at h
  split at h
  case h_1 hop | h_2 hop | h_6 hop =>
    obtain ⟨ha, rfl⟩ := (decodeN_eq_instr _ _ _).mp h
    rw [encode, ← ha, cmdWord_argField hop]
  case h_3 hop | h_4 hop =>
    obtain ⟨b, ha, rfl⟩ := (decodeB_eq_instr _ _ _).mp h
    rw [encode, ← ha, cmdWord_argField hop]
  case h_5 hop | h_9 hop =>
    obtain ⟨f, ha, rfl⟩ := (decodeF_eq_instr _ _ _).mp h
    rw [encode, ← ha, cmdWord_argField hop]
  case h_7 hop =>
    cases h
    rw [encode, cmdWord_argField hop]
  case h_8 hop =>
    obtain ⟨s, ha, rfl⟩ := (decodeS_eq_instr _ _ _).mp h
    rw [encode, ← ha, cmdWord_argField hop]
  case h_10 hop =>
    obtain ⟨x, ha, rfl⟩ := (decodeC_eq_instr _ _ _).mp h
    rw [encode, ← ha, cmdWord_argField hop]
  case h_11 => cases h

theorem decode_eq_instr_iff {c : CmdWord} {i : Instr} : decode c = .instr i ↔ encode i = c :=
  ⟨encode_of_decode, fun h => h ▸ decode_encode i⟩

/-- Settles O1: each format gives back the operand that its command's word holds. -/
theorem decodeOfEncodeIsTheCommand : Obligations.DecodeOfEncodeIsTheCommand := decode_encode

/-- Settles O2: a decoded word is its opcode and an operand extended with zeros, which is what the encoder makes. -/
theorem encodeOfDecodeIsTheWord : Obligations.EncodeOfDecodeIsTheWord := fun _ _ => encode_of_decode

/-! ### Match and mask (R89) -/

theorem getElem_cmdWord (op : BitVec 4) (a : BitVec 17) {k : Nat} (hk : k < 21) :
    (cmdWord op a)[k] = if k < 17 then a.getLsbD k else op.getLsbD (k - 17) := by
  by_cases h : k < 17
  · simp [cmdWord, h]
  · simp [cmdWord, h, BitVec.getLsbD_of_ge a k (by omega)]

/-- A word with opcode `op` and zeros above the low `w` bits of `arg` is one whose `arg` is a `w`-bit operand. -/
theorem and_operandMask_iff {w : Nat} (hw : w ≤ 17) (op : BitVec 4) (c : CmdWord) :
    c &&& ~~~((BitVec.allOnes w).setWidth 21) = cmdWord op 0 ↔ ∃ x : BitVec w, cmdWord op (x.setWidth 17) = c := by
  constructor
  · intro h
    refine ⟨c.extractLsb' 0 w, ?_⟩
    ext k hk
    have hbit : (c &&& ~~~((BitVec.allOnes w).setWidth 21))[k] = (cmdWord op 0)[k] := by rw [h]
    by_cases hkw : k < w
    · simp [getElem_cmdWord, hk, hkw, show k < 17 by omega]
    · simpa [getElem_cmdWord, hkw] using hbit.symm
  · rintro ⟨x, rfl⟩
    ext k hk
    by_cases hkw : k < w
    · simp [getElem_cmdWord, hkw, show k < 17 by omega]
    · simp [getElem_cmdWord, hkw, BitVec.getLsbD_of_ge x k (by omega)]

/-- A row of the opcode map: its commands are one for each `w`-bit operand, its mask leaves out the operand's bits, and
its match is its opcode with no operand. -/
theorem and_mask_eq_match_iff {w : Nat} {α : Type} {bits : α → BitVec w} {mk : α → Instr} {op : BitVec 4}
    {mask word c : CmdWord} (hw : w ≤ 17) (hbits : Function.Surjective bits)
    (hencode : ∀ x, encode (mk x) = cmdWord op ((bits x).setWidth 17))
    (hmask : mask = ~~~((BitVec.allOnes w).setWidth 21)) (hword : word = cmdWord op 0) :
    c &&& mask = word ↔ ∃ x, decode c = .instr (mk x) := by
  simp only [hmask, hword, and_operandMask_iff hw, decode_eq_instr_iff, hencode]
  exact hbits.exists

/-- A row without an operand: its mask is every bit. -/
theorem and_allOnes_eq_match_iff {i : Instr} {c : CmdWord} : c &&& 0x1FFFFF = encode i ↔ decode c = .instr i := by
  rw [decode_eq_instr_iff, show (0x1FFFFF : CmdWord) = BitVec.allOnes 21 from rfl, BitVec.and_allOnes]
  exact eq_comm

theorem ButtonId.toBits_surjective : Function.Surjective ButtonId.toBits :=
  fun x => ⟨.ofBits x, ButtonId.toBits_ofBits x⟩

theorem ofBool_surjective : Function.Surjective BitVec.ofBool :=
  fun x => ⟨x.getLsbD 0, ofBool_getLsbD_zero x⟩

end Sys2Proof

/-! Proofs of the statements about a presented word: when it is accepted, held or refused, and the turns of MAIN that
pass (30_encoding.md R80 to R92). -/

namespace Sys2Proof.Machine

/-! ### Refusals for the phase (R91) -/

/-- A ready command is refused for the phase exactly where its row of R28 does not list the phase. -/
theorem exec_eq_outOfPhase_iff {i : Instr} {s : State} (hr : cmdReady s = true) :
    (∃ p, exec i s = .refused (.outOfPhase p)) ↔ i.acceptedIn s.phase = false := by
  constructor
  · rintro ⟨p, hrefused⟩
    by_contra hp
    rcases exec_accepted hr (Bool.eq_true_of_not_eq_false hp) with ⟨t, hnext⟩ | ⟨-, -, hzero⟩
    · cases hrefused.symm.trans hnext
    · cases hrefused.symm.trans hzero
  · exact fun hp => ⟨s.phase, exec_outOfPhase hr hp⟩

/-- The same with the refusal written out: the phase it names is the present one. -/
theorem exec_eq_outOfPhase_phase_iff {i : Instr} {s : State} (hr : cmdReady s = true) :
    exec i s = .refused (.outOfPhase s.phase) ↔ ¬i.acceptedIn s.phase = true := by
  rw [Bool.not_eq_true]
  exact ⟨fun h => (exec_eq_outOfPhase_iff hr).mp ⟨_, h⟩, exec_outOfPhase hr⟩

/-- Settles O3: the lemmas for a row without and with an operand give the ten rows, and the column of phases is
`acceptedIn`. -/
theorem wordIsTheCommandOfItsRow : Obligations.WordIsTheCommandOfItsRow := by
  intro c
  refine ⟨and_allOnes_eq_match_iff (i := .sample), and_allOnes_eq_match_iff (i := .deb),
    and_mask_eq_match_iff (op := 0x3) (by decide) ButtonId.toBits_surjective (fun _ => rfl) rfl rfl,
    and_mask_eq_match_iff (op := 0x4) (by decide) ButtonId.toBits_surjective (fun _ => rfl) rfl rfl,
    and_mask_eq_match_iff (op := 0x5) (by decide) ofBool_surjective (fun _ => rfl) rfl rfl,
    and_allOnes_eq_match_iff (i := .srrst),
    and_mask_eq_match_iff (op := 0x7) (by decide) Function.surjective_id (fun _ => ?_) rfl rfl,
    and_mask_eq_match_iff (op := 0x8) (by decide) Function.surjective_id (fun _ => rfl) rfl rfl,
    and_mask_eq_match_iff (op := 0x9) (by decide) ofBool_surjective (fun _ => rfl) rfl rfl,
    and_mask_eq_match_iff (op := 0xA) (by decide) Function.surjective_id (fun _ => rfl) rfl rfl, ?_⟩
  · simp [encode]
  · intro i s _ hr
    obtain ⟨haccepted, -⟩ := acceptedCommandsCompleteAndMoveThePhase
    cases i <;> exact (exec_eq_outOfPhase_phase_iff hr).trans (not_congr (haccepted _ s.phase))

/-- Settles O10: each refusal is a phase outside the command's row, and in a phase of its row there is none. -/
theorem outOfPhaseCommandIsRefused : Obligations.OutOfPhaseCommandIsRefused := by
  intro s hr
  have happ (hp : s.phase = 1) {i : Instr} (hi : i.acceptedIn 1 = false) :
      exec i s = .refused (.outOfPhase 1) := hp ▸ exec_outOfPhase hr (hp ▸ hi)
  refine ⟨?_, ?_, ?_, ?_, ?_⟩
  · rintro (hp | hp) <;> exact exec_outOfPhase hr (by rw [hp]; rfl)
  · rintro (hp | hp) <;> exact exec_outOfPhase hr (by rw [hp]; rfl)
  · rintro (hp | hp) f <;> exact exec_outOfPhase hr (by rw [hp]; rfl)
  · intro hp
    exact ⟨fun b => happ hp rfl, fun b => happ hp rfl, fun f => happ hp rfl, happ hp rfl, fun v => happ hp rfl,
      fun v => happ hp rfl, fun c => happ hp rfl⟩
  · intro i hi p hrefused
    exact Bool.false_ne_true (((exec_eq_outOfPhase_iff hr).mp ⟨p, hrefused⟩).symm.trans hi)

/-! ### Reserved words (R90) -/

theorem toNat_opField (c : CmdWord) : (opField c).toNat = (c >>> 17).toNat := by
  simp only [opField, BitVec.extractLsb'_toNat, BitVec.toNat_ushiftRight, Nat.shiftRight_eq_div_pow]
  omega

/-- No row of the opcode map has opcode 0x0 or 0xB to 0xF. -/
theorem decode_reserved_opcode {c : CmdWord} (h : (opField c).toNat = 0 ∨ 0xB ≤ (opField c).toNat) :
    decode c = .reserved .opcode := by
  unfold decode
  split
  case h_11 => rfl
  all_goals omega

/-- A ready block that is presented a reserved word refuses it. -/
theorem takeCommand_reserved {s : State} {w : CmdWord} {ws : List CmdWord} {why : Reserved} (hr : cmdReady s = true)
    (hc : s.cmds = w :: ws) (hd : decode w = .reserved why) : takeCommand s = .refused (.reservedWord why) := by
  simp only [takeCommand, hr, hc, hd, ↓reduceIte]

/-- Settles O4: the reserved opcodes have no row; a word that is not reserved is the word of the command it decodes
to. -/
theorem reservedWordIsRefused : Obligations.ReservedWordIsRefused := by
  intro c
  refine ⟨?_, ?_, fun why s ws hd hr hc => takeCommand_reserved hr hc hd⟩
  · rw [← toNat_opField]
    exact decode_reserved_opcode
  · intro hno
    cases hd : decode c with
    | instr i => exact absurd (encode_of_decode hd) (hno i)
    | reserved why => exact ⟨why, rfl⟩

/-- Settles O5: each word is closed, and the decoder computes it. -/
theorem specWordsDecode : Obligations.SpecWordsDecode := by
  unfold Obligations.SpecWordsDecode
  decide

/-! ### A step and the presented word (R80, R82) -/

/-- A command's word presented to a ready block is the block's own turn, if no request is pending (log 2). -/
theorem fairTurn_command {s : State} (hirq : irqLine s = false) (hr : cmdReady s = true) (hc : s.cmds ≠ []) :
    fairTurn s = some .command := by
  obtain ⟨hactive, hidle⟩ := (cmdReady_iff s).mp hr
  simp [fairTurn, hirq, hidle, resumeEnabled, hactive, hr, cmdValid, hc]

/-- Settles O7: the command's turn, from the agenda or the block's own, takes the word and runs its command. -/
theorem stepRunsTheDecodedCommand : Obligations.StepRunsTheDecodedCommand := by
  intro s w ws i hr hc hd
  constructor
  · intro us ha
    rw [step_agenda ha]
    exact takeCommand_instr (s := { s with agenda := us }) hr hc hd
  · intro ha hirq
    rw [step_own ha (fairTurn_command hirq hr (by simp [hc]))]
    exact takeCommand_instr hr hc hd

/-- In state `s` the turn `u` passes: it is taken and changes nothing (log 12). -/
def Passes (u : Turn) (s : State) : Prop := takeTurn u s = .next s

/-- The step that takes a turn which passes leaves the agenda shorter and nothing else changed. -/
theorem Passes.step {u : Turn} {s : State} {us : List Turn} (h : Passes u { s with agenda := us })
    (ha : s.agenda = u :: us) : step s = .next { s with agenda := us } :=
  (step_agenda ha).trans h

theorem passes_command_of_not_ready {s : State} (hr : cmdReady s = false) : Passes .command s :=
  takeCommand_held hr

theorem passes_command_of_no_word {s : State} (hc : s.cmds = []) : Passes .command s := by
  simp [Passes, takeTurn, takeCommand, hc]

theorem passes_ustep {s : State} (ho : s.seqOp = .idle) : Passes .ustep s := by
  simp [Passes, takeTurn, ustep, ho]

theorem passes_resume {s : State} (h : resumeEnabled s = false) : Passes .resume s := by
  simp [Passes, takeTurn, h]

theorem passes_irq {s : State} (h : irqLine s = false) : Passes .irq s := by
  simp [Passes, takeTurn, h]

/-- A pin change to the present levels is none (R213). -/
theorem passes_pinchg (s : State) : Passes (.pinchg s.pin) s := by
  simp [Passes, takeTurn]

/-- RESUME is not enabled while Active or without a recorded wake (R190). -/
theorem resumeEnabled_eq_false {s : State} (h : s.gstate = .active ∨ s.wakeLatch = false) :
    resumeEnabled s = false := by
  rcases h with h | h <;> simp [resumeEnabled, h]

/-- Settles O9: a block that is not ready holds every command, and the command's turn passes. -/
theorem commandIsHeldUntilReady : Obligations.CommandIsHeldUntilReady :=
  fun s => ⟨cmdReady_iff s, fun hr => ⟨exec_held hr, fun us ha =>
    (passes_command_of_not_ready (s := { s with agenda := us }) hr).step ha⟩⟩

/-- Settles O14: each turn is one that passes on the state without it. -/
theorem turnNotEnabledPasses : Obligations.TurnNotEnabledPasses := by
  intro s us
  refine ⟨fun ha ho => ?_, fun ha hnot => ?_, fun ha hirq => ?_, fun ha => ?_, fun ha hcmd => ?_⟩
  · exact (passes_ustep (s := { s with agenda := us }) ho).step ha
  · exact (passes_resume (s := { s with agenda := us }) (resumeEnabled_eq_false hnot)).step ha
  · exact (passes_irq (s := { s with agenda := us }) hirq).step ha
  · exact (passes_pinchg { s with agenda := us }).step ha
  · rcases hcmd with hready | hcmds
    · exact (passes_command_of_not_ready (s := { s with agenda := us }) hready).step ha
    · exact (passes_command_of_no_word (s := { s with agenda := us }) hcmds).step ha

/-- Settles O47: asleep the command, the micro-step and the return without a wake are turns that pass; the return with
the wake recorded is enabled. -/
theorem asleepMainOnlyResumes : Obligations.AsleepMainOnlyResumes := by
  intro s us hasleep ho
  have hready : cmdReady s = false := cmdReady_asleep hasleep
  obtain ⟨hustep, hresume, -, -, hcommand⟩ := turnNotEnabledPasses s us
  refine ⟨hready, ?_, fun ha hwake => hresume ha (.inr hwake), ?_⟩
  · rintro (ha | ha)
    · exact hcommand ha (.inl hready)
    · exact hustep ha ho
  · intro ha hwake
    have henabled : resumeEnabled { s with agenda := us } = true := (resumeEnabled_iff _).mpr ⟨hasleep, hwake⟩
    exact ⟨resume { s with agenda := us }, by rw [step_agenda ha, takeTurn, if_pos henabled], resume_gstate _⟩

end Sys2Proof.Machine

/-! Proof of the statement about the assembler: the line a command is printed as reads back as that command
(30_encoding.md R95). -/

namespace Sys2Proof.Machine

/-! ### Tokens (R95, log 18) -/

/-- A character that stands inside a token: no blank, no bracket, no semicolon. -/
def isTokenChar (c : Char) : Bool := c ≠ ';' && c ≠ ' ' && c ≠ '[' && c ≠ ']'

/-- A token as a command line has them: not empty, and of token characters only. -/
def isToken (t : List Char) : Bool := !t.isEmpty && t.all isTokenChar

theorem isToken_iff (t : List Char) : isToken t = true ↔ t ≠ [] ∧ ∀ c ∈ t, isTokenChar c = true := by
  simp [isToken]

/-- A token character is added to the token being read. -/
theorem tokenize_cons {c : Char} (hc : isTokenChar c = true) (cs acc : List Char) :
    tokenize (c :: cs) acc = tokenize cs (acc ++ [c]) := by
  obtain ⟨⟨⟨hsemi, hblank⟩, hopen⟩, hclose⟩ := by simpa [isTokenChar] using hc
  simp [tokenize, hsemi, hblank, hopen, hclose]

theorem tokenize_append {t : List Char} (ht : ∀ c ∈ t, isTokenChar c = true) (rest acc : List Char) :
    tokenize (t ++ rest) acc = tokenize rest (acc ++ t) := by
  induction t generalizing acc with
  | nil => simp
  | cons c cs ih =>
    obtain ⟨hc, hcs⟩ := List.forall_mem_cons.mp ht
    rw [List.cons_append, tokenize_cons hc, ih hcs, List.append_assoc, List.singleton_append]

/-- A token at the end of a line. -/
theorem tokenize_token {t : List Char} (ht : isToken t = true) : tokenize t [] = [t] := by
  obtain ⟨hne, hchars⟩ := (isToken_iff t).mp ht
  simpa [tokenize, hne] using tokenize_append hchars [] []

/-- A token with a blank behind it. -/
theorem tokenize_token_blank {t : List Char} (ht : isToken t = true) (rest : List Char) :
    tokenize (t ++ ' ' :: rest) [] = t :: tokenize rest [] := by
  obtain ⟨hne, hchars⟩ := (isToken_iff t).mp ht
  rw [tokenize_append hchars]
  simp [tokenize, hne]

/-- Tokens joined by blanks are read as these tokens. -/
theorem tokenize_intercalate {ts : List (List Char)} (h : ∀ t ∈ ts, isToken t = true) :
    tokenize ([' '].intercalate ts) [] = ts := by
  induction ts with
  | nil => rfl
  | cons t ts ih =>
    obtain ⟨ht, hts⟩ := List.forall_mem_cons.mp h
    cases ts with
    | nil => simpa using tokenize_token ht
    | cons u us =>
      rw [List.intercalate_cons_cons, List.append_assoc, List.singleton_append, tokenize_token_blank ht, ih hts]

/-! ### The tokens of a command -/

@[simp] theorem isTokenChar_hexDigit : ∀ d : BitVec 4, isTokenChar (hexDigit d) = true := by
  decide

@[simp] theorem isTokenChar_flagChar : ∀ f : Bool, isTokenChar (flagChar f) = true := by
  decide

theorem isToken_append {t u : List Char} (ht : isToken t = true) (hu : isToken u = true) :
    isToken (t ++ u) = true := by
  simp_all [isToken]

theorem isToken_displayText (v : Display) : isToken (displayText v) = true :=
  isToken_append (t := ['0', 'x']) rfl (by simp [isToken])

theorem isToken_binText (v : Nibble) : isToken (binText v) = true :=
  isToken_append (t := ['0', 'b']) rfl (by simp [isToken])

theorem isToken_buttonText (b : ButtonId) : isToken (buttonText b) = true := by
  cases b <;> decide

theorem isToken_flag : ∀ f : Bool, isToken [flagChar f] = true := by
  decide

theorem commandTokens_all_isToken (i : Instr) : (commandTokens i).all isToken = true := by
  cases i <;> simp only [commandTokens, List.all_cons, List.all_nil, Bool.and_true, Bool.and_eq_true]
  case sample | deb | srrst => decide
  case clrr b | clrf b => exact ⟨by decide, isToken_buttonText b⟩
  case oe f | gov f => exact ⟨by decide, isToken_flag f⟩
  case write v => exact ⟨by decide, isToken_displayText v⟩
  case status v => exact ⟨by decide, isToken_binText v⟩
  case cfgint c =>
    exact ⟨by decide, isToken_append (t := ['l', 'c', '=']) rfl (isToken_flag _),
      isToken_append rfl (isToken_binText _), isToken_append rfl (isToken_binText _)⟩

/-! ### Operands: what is printed reads back -/

@[simp] theorem readFlag_flagChar (f : Bool) : readFlag [flagChar f] = some f := by
  cases f <;> rfl

@[simp] theorem readBit_flagChar (f : Bool) : readBit (flagChar f) = some f := readFlag_flagChar f

@[simp] theorem readButton_buttonText (b : ButtonId) : readButton (buttonText b) = some b := by
  cases b <;> rfl

/-- A four-bit vector is the vector of its bits (R7). -/
theorem nibbleOf_getLsbD :
    ∀ v : Nibble, nibbleOf (v.getLsbD 3) (v.getLsbD 2) (v.getLsbD 1) (v.getLsbD 0) = v := by
  decide

@[simp] theorem readNibble_binText (v : Nibble) : readNibble (binText v) = some v := by
  simp only [readNibble, binText, readBit_flagChar, nibbleOf_getLsbD]

@[simp] theorem hexValue_hexDigit : ∀ d : BitVec 4, hexValue (hexDigit d) = some d.toNat := by
  decide

/-- A display word is the number its five hexadecimal digits spell. -/
theorem toNat_eq_hexDigits (v : Display) :
    (v.extractLsb' 16 4).toNat * 16 ^ 4 + ((v.extractLsb' 12 4).toNat * 16 ^ 3 + ((v.extractLsb' 8 4).toNat * 16 ^ 2
      + ((v.extractLsb' 4 4).toNat * 16 ^ 1 + ((v.extractLsb' 0 4).toNat * 16 ^ 0 + 0)))) = v.toNat := by
  simp only [BitVec.extractLsb'_toNat, Nat.shiftRight_eq_div_pow]
  have := v.isLt
  omega

theorem readDisplay_displayText (v : Display) : readDisplay (displayText v) = some v := by
  have hnumber : hexNumber [hexDigit (v.extractLsb' 16 4), hexDigit (v.extractLsb' 12 4), hexDigit (v.extractLsb' 8 4),
      hexDigit (v.extractLsb' 4 4), hexDigit (v.extractLsb' 0 4)] = some v.toNat := by
    rw [← toNat_eq_hexDigits v]
    simp only [hexNumber, hexValue_hexDigit, List.length_cons, List.length_nil]
  simp [readDisplay, displayText, hnumber, displayWidth, v.isLt]

/-- `INTCFG` is the vector of its three fields (R37, R193). -/
theorem intCfgOf_fields (c : IntCfg) : intCfgOf (lcEn c) (edgeEn c) (edgeSel c) = c := by
  apply BitVec.eq_of_getLsbD_eq
  intro k hk
  interval_cases k <;> simp [intCfgOf, lcEn, edgeEn, edgeSel]

theorem readIntCfg_commandTokens (c : IntCfg) : readIntCfg (commandTokens (.cfgint c)).tail = some c := by
  simp [readIntCfg, commandTokens, intCfgOf_fields]

/-- The tokens of a command spell it: the mnemonic selects the reader of its operand, which reads the operand back. -/
theorem readCommand_commandTokens (i : Instr) : readCommand (commandTokens i) = some i := by
  cases i with
  | sample | deb | srrst => rfl
  | clrr b => exact congrArg (Option.map Instr.clrr) (readButton_buttonText b)
  | clrf b => exact congrArg (Option.map Instr.clrf) (readButton_buttonText b)
  | oe f => exact congrArg (Option.map Instr.oe) (readFlag_flagChar f)
  | gov f => exact congrArg (Option.map Instr.gov) (readFlag_flagChar f)
  | write v => exact congrArg (Option.map Instr.write) (readDisplay_displayText v)
  | status v => exact congrArg (Option.map Instr.status) (readNibble_binText v)
  | cfgint c => exact congrArg (Option.map Instr.cfgint) (readIntCfg_commandTokens c)

theorem commandTokens_ne_nil (i : Instr) : commandTokens i ≠ [] := by
  cases i <;> exact List.cons_ne_nil _ _

/-- Settles O6: the printed line has the command's tokens, and they spell the command. -/
theorem assemblerReadsWhatItPrints : Obligations.AssemblerReadsWhatItPrints := by
  intro i
  have htokens : tokenize (commandText i) [] = commandTokens i :=
    tokenize_intercalate (List.all_eq_true.mp (commandTokens_all_isToken i))
  simp only [readLine, htokens, readCommand_commandTokens, List.isEmpty_iff, commandTokens_ne_nil, if_false]

end Sys2Proof.Machine

/-! Proofs of the statements about `update`, tick by tick, and about SAMPLE, DEB, CLRR and CLRF (40_debounce.md). -/

namespace Sys2Proof.Machine

/-! ### `update`, branch by branch (R112, R114) -/

/-- A sample that differs from `last` loads the window; no flag and no hold counter is written (R113). -/
theorem update_of_ne_last {dw hw : Nat} {B : Button} {r : Bool} (h : r ≠ B.last) :
    update dw hw B r = { B with current := r, last := r, debounceCounter := dw } := by
  rw [update, recordSample_eq, advance, if_pos h]

/-- Inside the window, a sample that agrees with `last` takes one tick off it. -/
theorem update_of_one_lt_debounce {dw hw : Nat} {B : Button} {r : Bool} (hr : r = B.last)
    (hd : 1 < B.debounceCounter) :
    update dw hw B r = { B with current := r, debounceCounter := B.debounceCounter - 1 } := by
  have hpos : 0 < B.debounceCounter := by omega
  have hne : B.debounceCounter - 1 ≠ 0 := by omega
  simp [update, recordSample_eq, advance, countDebounce, hr, hpos, hne]

/-- The last tick of the window triggers. -/
theorem update_of_debounce_eq_one {dw hw : Nat} {B : Button} {r : Bool} (hr : r = B.last)
    (hd : B.debounceCounter = 1) :
    update dw hw B r = trigger hw { B with current := r, debounceCounter := 0 } := by
  simp [update, recordSample_eq, advance, countDebounce, hr, hd]

/-- After the window, a sample that agrees with `last` takes one tick off the hold counter, if it is positive; a hold
counter at zero stays there, and the subtraction on naturals says the same. -/
theorem update_of_hold_ne_one {dw hw : Nat} {B : Button} {r : Bool} (hr : r = B.last)
    (hd : B.debounceCounter = 0) (hh : B.holdCounter ≠ 1) :
    update dw hw B r = { B with current := r, holdCounter := B.holdCounter - 1 } := by
  rcases Nat.eq_zero_or_pos B.holdCounter with hzero | hpos
  · simp [update, recordSample_eq, advance, countHold, hr, hd, hzero]
  · have hne : B.holdCounter - 1 ≠ 0 := by omega
    simp [update, recordSample_eq, advance, countHold, hr, hd, hpos, hne]

/-- The last tick of the hold counter triggers. -/
theorem update_of_hold_eq_one {dw hw : Nat} {B : Button} {r : Bool} (hr : r = B.last)
    (hd : B.debounceCounter = 0) (hh : B.holdCounter = 1) :
    update dw hw B r = trigger hw { B with current := r } := by
  simp [update, recordSample_eq, advance, countHold, trigger, hr, hd, hh]

/-- Settles O18: the test of `last` and the two counters pick the branch, and each branch has its lemma. -/
theorem updateIsTheAlgorithm : Obligations.UpdateIsTheAlgorithm := by
  intro dw hw B r
  split_ifs with hlast hone hmany hhold
  · exact update_of_ne_last hlast
  · exact update_of_debounce_eq_one (not_not.mp hlast) hone
  · exact update_of_one_lt_debounce (not_not.mp hlast) hmany
  · exact update_of_hold_eq_one (not_not.mp hlast) (by omega) hhold
  · exact update_of_hold_ne_one (not_not.mp hlast) (by omega) hhold

/-! ### A constant sample (R115, R116, R117) -/

/-- Inside the window, a constant sample counts down and writes no flag. -/
theorem updates_debouncing {dw hw : Nat} {B : Button} (hlast : B.last = B.current) {k : Nat}
    (hk : k < B.debounceCounter) :
    updates dw hw (List.replicate k B.current) B = { B with debounceCounter := B.debounceCounter - k } := by
  induction k with
  | zero => rfl
  | succ k ih =>
    have hmany : 1 < B.debounceCounter - k := by omega
    rw [List.replicate_succ', updates_snoc, ih (by omega)]
    exact update_of_one_lt_debounce (B := { B with debounceCounter := B.debounceCounter - k }) hlast.symm hmany

/-- The tick at which the window reaches zero triggers. -/
theorem updates_debounceTrigger {dw hw : Nat} {B : Button} (hlast : B.last = B.current)
    (hd : 0 < B.debounceCounter) :
    updates dw hw (List.replicate B.debounceCounter B.current) B = trigger hw { B with debounceCounter := 0 } := by
  obtain ⟨k, hk⟩ := Nat.exists_eq_add_of_le' hd
  have hone : B.debounceCounter - k = 1 := by omega
  rw [hk, List.replicate_succ', updates_snoc, updates_debouncing hlast (by omega)]
  exact update_of_debounce_eq_one (B := { B with debounceCounter := B.debounceCounter - k }) hlast.symm hone

/-- Before the hold counter reaches zero, a constant sample counts it down and writes no flag. -/
theorem updates_holdCountdown {dw hw : Nat} {B : Button} (hlast : B.last = B.current) (hd : B.debounceCounter = 0)
    {k : Nat} (hk : k < B.holdCounter) :
    updates dw hw (List.replicate k B.current) B = { B with holdCounter := B.holdCounter - k } := by
  induction k with
  | zero => rfl
  | succ k ih =>
    have hmany : B.holdCounter - k ≠ 1 := by omega
    rw [List.replicate_succ', updates_snoc, ih (by omega)]
    exact update_of_hold_ne_one (B := { B with holdCounter := B.holdCounter - k }) hlast.symm hd hmany

/-- The tick at which the hold counter reaches zero triggers. -/
theorem updates_holdTrigger {dw hw : Nat} {B : Button} (hlast : B.last = B.current) (hd : B.debounceCounter = 0)
    (hh : 0 < B.holdCounter) : updates dw hw (List.replicate B.holdCounter B.current) B = trigger hw B := by
  obtain ⟨k, hk⟩ := Nat.exists_eq_add_of_le' hh
  have hone : B.holdCounter - k = 1 := by omega
  rw [hk, List.replicate_succ', updates_snoc, updates_holdCountdown hlast hd (by omega)]
  exact update_of_hold_eq_one (B := { B with holdCounter := B.holdCounter - k }) hlast.symm hd hone

theorem updates_append (dw hw : Nat) (rs qs : List Bool) (B : Button) :
    updates dw hw (rs ++ qs) B = updates dw hw qs (updates dw hw rs B) :=
  List.foldl_append

/-- At each multiple of the hold window a trigger comes again, at either level: it writes what the one before it wrote, so
the record is that of the first one. -/
theorem updates_holdTriggers {dw hw : Nat} {B : Button} (hpos : 1 ≤ hw) (hlast : B.last = B.current)
    (hd : B.debounceCounter = 0) (hh : B.holdCounter = hw) (n : Nat) :
    updates dw hw (List.replicate ((n + 1) * hw) B.current) B = trigger hw B := by
  induction n with
  | zero =>
    subst hh
    rw [Nat.zero_add, Nat.one_mul]
    exact updates_holdTrigger hlast hd hpos
  | succ n ih =>
    rw [Nat.succ_mul, List.replicate_add, updates_append, ih]
    exact updates_holdTrigger (B := trigger hw B) hlast hd hpos

/-! ### A changed sample (R113, R115, R125) -/

/-- The tick of a change loads the window, and the ticks after it count down. -/
theorem updates_change {dw hw : Nat} {B : Button} {r : Bool} (hr : r ≠ B.last) {k : Nat} (hk : k < dw) :
    updates dw hw (List.replicate (k + 1) r) B = { B with current := r, last := r, debounceCounter := dw - k } := by
  rw [List.replicate_succ, updates_cons, update_of_ne_last hr]
  exact updates_debouncing (B := { B with current := r, last := r, debounceCounter := dw }) rfl hk

/-- A window after the change comes a trigger in the direction of the new level. -/
theorem updates_changeTrigger {dw hw : Nat} {B : Button} {r : Bool} (hr : r ≠ B.last) (hdw : 1 ≤ dw) :
    updates dw hw (List.replicate (dw + 1) r) B =
      { current := r, last := r, debounceCounter := 0, holdCounter := hw, risingEdge := r, fallingEdge := !r } := by
  rw [List.replicate_succ, updates_cons, update_of_ne_last hr]
  exact updates_debounceTrigger (B := { B with current := r, last := r, debounceCounter := dw }) rfl hdw

/-- Settles O19: the window after a change, and the trigger at its end. -/
theorem debounceTriggerAtTheEndOfTheWindow : Obligations.DebounceTriggerAtTheEndOfTheWindow := by
  intro dw hw B r hdw hlast hr
  rw [← hlast] at hr
  exact ⟨fun k => updates_change hr, updates_changeTrigger hr hdw⟩

/-- Settles O20: the countdown to the first hold trigger, and the countdown from each one. -/
theorem holdTriggerEveryHoldWindow : Obligations.HoldTriggerEveryHoldWindow := by
  intro dw hw B hpos hlast hd hh
  constructor
  · intro k hk
    subst hh
    exact updates_holdCountdown hlast hd hk
  · intro n k hk
    rw [List.replicate_add, updates_append, updates_holdTriggers hpos hlast hd hh]
    exact updates_holdCountdown (B := trigger hw B) hlast hd hk

/-- Settles O21: the reversal is itself a change, so it loads the full window again, from the record the first change
left. -/
theorem reversedFlipTriggersTheRestoredLevel : Obligations.ReversedFlipTriggersTheRestoredLevel := by
  intro dw hw j B hj hjdw hlast
  have hflip : (!B.current) ≠ B.last := by simp [hlast]
  have hback : B.current ≠ !B.current := by simp
  have hwindow (m : Nat) (hm : 1 ≤ m) (hmj : m ≤ j) : updates dw hw (List.replicate m (!B.current)) B
      = { B with current := !B.current, last := !B.current, debounceCounter := dw - (m - 1) } := by
    obtain ⟨k, rfl⟩ := Nat.exists_eq_add_of_le' hm
    exact updates_change hflip (by omega)
  refine ⟨hwindow, fun k hk => ?_, ?_⟩
  · rw [updates_append, hwindow j hj le_rfl, updates_change hback hk, ← hlast]
  · rw [updates_append, hwindow j hj le_rfl, updates_changeTrigger hback (hj.trans hjdw), ← hlast]

/-! ### The hold counter and the flags, from the first trigger on (R124, R127) -/

/-- A hold counter at zero stays there with the flags unwritten, or a trigger loads it and assigns the flags. -/
theorem update_of_holdCounter_zero {dw hw : Nat} {B : Button} {r : Bool} (h : B.holdCounter = 0) :
    ((update dw hw B r).holdCounter = 0 ∧ (update dw hw B r).risingEdge = B.risingEdge
      ∧ (update dw hw B r).fallingEdge = B.fallingEdge) ∨
    ((update dw hw B r).holdCounter = hw ∧ (update dw hw B r).risingEdge = r
      ∧ (update dw hw B r).fallingEdge = !r) := by
  rw [updateIsTheAlgorithm]
  split_ifs with hlast hone hmany hhold
  · exact .inl ⟨h, rfl, rfl⟩
  · exact .inr ⟨rfl, rfl, rfl⟩
  · exact .inl ⟨h, rfl, rfl⟩
  · exact .inr ⟨rfl, rfl, rfl⟩
  · exact .inl ⟨Nat.sub_eq_zero_of_le (by omega), rfl, rfl⟩

/-- A positive hold counter within the window stays so: what would decrement it to zero reloads it. -/
theorem update_holdCounter_mem {dw hw : Nat} {B : Button} {r : Bool} (hpos : 1 ≤ B.holdCounter)
    (hle : B.holdCounter ≤ hw) : 1 ≤ (update dw hw B r).holdCounter ∧ (update dw hw B r).holdCounter ≤ hw := by
  rw [updateIsTheAlgorithm]
  split_ifs with hlast hone hmany hhold
  · exact ⟨hpos, hle⟩
  · exact ⟨hpos.trans hle, le_rfl⟩
  · exact ⟨hpos, hle⟩
  · exact ⟨hpos.trans hle, le_rfl⟩
  · exact ⟨Nat.le_sub_one_of_lt (by omega), (Nat.sub_le _ _).trans hle⟩

/-- Settles O22: the two cases of the hold counter before the tick. -/
theorem holdCounterIsPositiveFromTheFirstTrigger : Obligations.HoldCounterIsPositiveFromTheFirstTrigger :=
  fun _ _ _ _ _ => ⟨update_holdCounter_mem, update_of_holdCounter_zero⟩

/-- How an invariant of a record is proved once: every update keeps it. -/
theorem updates_keeps {dw hw : Nat} {P : Button → Prop} (hupdate : ∀ B r, P B → P (update dw hw B r))
    (rs : List Bool) {B : Button} (hB : P B) : P (updates dw hw rs B) := by
  induction rs generalizing B with
  | nil => exact hB
  | cons r rs ih => exact ih (hupdate B r hB)

/-- Both counters at zero and both flags clear: no trigger has come, and none is on its way. -/
structure Button.Quiet (B : Button) : Prop where
  debounce_zero : B.debounceCounter = 0
  hold_zero : B.holdCounter = 0
  rising_clear : B.risingEdge = false
  falling_clear : B.fallingEdge = false

theorem Button.quiet_zero : Button.zero.Quiet := ⟨rfl, rfl, rfl, rfl⟩

/-- With a debounce window of zero a change loads 0, so no counter is ever positive. -/
theorem Button.Quiet.update {hw : Nat} {B : Button} (h : B.Quiet) (r : Bool) : (update 0 hw B r).Quiet := by
  obtain ⟨hd, hh, hrise, hfall⟩ := h
  by_cases hr : r = B.last
  · rw [update_of_hold_ne_one hr hd (by omega)]
    exact ⟨hd, Nat.sub_eq_zero_of_le (by omega), hrise, hfall⟩
  · rw [update_of_ne_last hr]
    exact ⟨rfl, hh, hrise, hfall⟩

/-- With a hold window of zero, a hold counter at zero stays there: a trigger loads 0. -/
theorem update_holdCounter_zero_of_zero_window {dw : Nat} (B : Button) (r : Bool) (h : B.holdCounter = 0) :
    (update dw 0 B r).holdCounter = 0 := by
  rcases update_of_holdCounter_zero h with ⟨hzero, -⟩ | ⟨hzero, -⟩ <;> exact hzero

/-- With both counters at zero a constant sample changes nothing. -/
theorem updates_idle {dw hw : Nat} {B : Button} (hlast : B.last = B.current) (hd : B.debounceCounter = 0)
    (hh : B.holdCounter = 0) (n : Nat) : updates dw hw (List.replicate n B.current) B = B := by
  have htick : update dw hw B B.current = B := by
    have hstays : B.holdCounter - 1 = B.holdCounter := by omega
    rw [update_of_hold_ne_one hlast.symm hd (by omega), hstays]
  induction n with
  | zero => rfl
  | succ n ih => rw [List.replicate_succ, updates_cons, htick, ih]

/-- Settles O23: a window of zero keeps `Quiet` from reset; a hold window of zero keeps the hold counter at zero, and the
debounce trigger is the one of any hold window. -/
theorem zeroWindowsTriggerAsTheAlgorithmSays : Obligations.ZeroWindowsTriggerAsTheAlgorithmSays := by
  refine ⟨fun hw rs => ?_, fun dw B r hdw hlast hr => ?_, fun dw n B hlast hd hh => updates_idle hlast hd hh n,
    fun dw rs => updates_keeps update_holdCounter_zero_of_zero_window rs rfl⟩
  · obtain ⟨-, hh, hrise, hfall⟩ := updates_keeps (fun _ r h => h.update r) rs Button.quiet_zero (dw := 0) (hw := hw)
    exact ⟨hrise, hfall, hh⟩
  · exact updates_changeTrigger (hlast ▸ hr) hdw

/-! ### The four commands (R110, R118, R121, R122) -/

/-- Settles O16: SAMPLE is accepted in phase 0 only, and a pin change writes no sample. -/
theorem sampleReadsThePins : Obligations.SampleReadsThePins := by
  refine ⟨rfl, fun s hr hp => ?_, fun s hr hp => ?_, fun s p => pinChange_raw p s⟩
  · rw [exec, execSample, accepting_ready hr (by rw [hp]; rfl)]
    rfl
  · exact exec_outOfPhase hr (beq_false_of_ne hp)

/-- Settles O17: DEB is accepted in phase 1 only, and a block that sleeps is not ready. -/
theorem debUpdatesTheFourButtons : Obligations.DebUpdatesTheFourButtons := by
  refine ⟨rfl, fun s hr hp => ?_, fun s hr hp => ?_, fun s hasleep => exec_held (cmdReady_asleep hasleep) .deb⟩
  · rw [exec, execDeb, accepting_ready hr (by rw [hp]; rfl)]
    rfl
  · exact exec_outOfPhase hr (beq_false_of_ne hp)

/-- CLRR in an accepting phase writes the one record back without the flag (R121). -/
theorem exec_clrr {b : ButtonId} {s : State} (hr : cmdReady s = true) (hp : s.phase = 0 ∨ s.phase = 2) :
    exec (.clrr b) s = .next { s with btn := s.btn.set b { s.btn.get b with risingEdge := false } } := by
  rw [exec, execClrr, accepting_app hr hp]

/-- CLRF in an accepting phase writes the one record back without the flag (R122). -/
theorem exec_clrf {b : ButtonId} {s : State} (hr : cmdReady s = true) (hp : s.phase = 0 ∨ s.phase = 2) :
    exec (.clrf b) s = .next { s with btn := s.btn.set b { s.btn.get b with fallingEdge := false } } := by
  rw [exec, execClrf, accepting_app hr hp]

/-- Settles O24: a read of the file after CLRR's write is the record without the flag, or the one that stood there. -/
theorem clrrClearsOneRisingFlag : Obligations.ClrrClearsOneRisingFlag :=
  ⟨⟨rfl, rfl, rfl, rfl⟩, fun b s hr hp => ⟨_, exec_clrr hr hp, rfl, fun c => Buttons.get_set s.btn b c _⟩⟩

/-- Settles O25: a read of the file after CLRF's write is the record without the flag, or the one that stood there. -/
theorem clrfClearsOneFallingFlag : Obligations.ClrfClearsOneFallingFlag :=
  ⟨⟨rfl, rfl, rfl, rfl⟩, fun b s hr hp => ⟨_, exec_clrf hr hp, rfl, fun c => Buttons.get_set s.btn b c _⟩⟩

end Sys2Proof.Machine

/-! Proofs of the statements about the serial driver and the external register (41_serial.md). -/

namespace Sys2Proof.Machine

/-! ### The micro-step table, one equation a row (R146) -/

theorem ustep_write_data {s : State} (ho : s.seqOp = .write) (hs : s.seqStep.toNat = 0)
    (hi : s.seqI.toNat < displayWidth) :
    ustep s = .next { wire .data (displayBit s.seqVal s.seqI) s with seqStep := 1 } := by
  simp only [ustep, ho, writeRow, hs, if_pos hi]

theorem ustep_write_clkRise {s : State} (ho : s.seqOp = .write) (hs : s.seqStep.toNat = 1) :
    ustep s = .next { wire .clk true s with seqStep := 2 } := by
  simp only [ustep, ho, writeRow, hs]

theorem ustep_write_clkHigh {s : State} (ho : s.seqOp = .write) (hs : s.seqStep.toNat = 2) :
    ustep s = .next { s with seqStep := 3 } := by
  simp only [ustep, ho, writeRow, hs, delay_eq]

theorem ustep_write_clkFall {s : State} (ho : s.seqOp = .write) (hs : s.seqStep.toNat = 3) :
    ustep s = .next { wire .clk false s with seqStep := 4 } := by
  simp only [ustep, ho, writeRow, hs]

theorem ustep_write_nextBit {s : State} (ho : s.seqOp = .write) (hs : s.seqStep.toNat = 4) (hi : s.seqI ≠ 0) :
    ustep s = .next { s with seqI := s.seqI - 1, seqStep := 0 } := by
  simp only [ustep, ho, writeRow, hs, delay_eq, if_neg hi]

theorem ustep_write_lastBit {s : State} (ho : s.seqOp = .write) (hs : s.seqStep.toNat = 4) (hi : s.seqI = 0) :
    ustep s = .next { s with seqStep := 5 } := by
  simp only [ustep, ho, writeRow, hs, delay_eq, if_pos hi]

theorem ustep_write_latchRise {s : State} (ho : s.seqOp = .write) (hs : s.seqStep.toNat = 5) :
    ustep s = .next { wire .latch true s with seqStep := 6 } := by
  simp only [ustep, ho, writeRow, hs]

theorem ustep_write_latchHigh {s : State} (ho : s.seqOp = .write) (hs : s.seqStep.toNat = 6) :
    ustep s = .next { s with seqStep := 7 } := by
  simp only [ustep, ho, writeRow, hs, delay_eq]

theorem ustep_write_latchFall {s : State} (ho : s.seqOp = .write) (hs : s.seqStep.toNat = 7) :
    ustep s = .next { wire .latch false s with seqStep := 8 } := by
  simp only [ustep, ho, writeRow, hs]

theorem ustep_write_done {s : State} (ho : s.seqOp = .write) (hs : s.seqStep.toNat = 8) :
    ustep s = .next { s with seqOp := .idle, seqStep := 0, seqI := 0 } := by
  simp only [ustep, ho, writeRow, hs, delay_eq]

theorem ustep_srrst_rstFall {s : State} (ho : s.seqOp = .srrst) (hs : s.seqStep.toNat = 0) :
    ustep s = .next { wire .rstN false s with seqStep := 1 } := by
  simp only [ustep, ho, srrstRow, hs]

theorem ustep_srrst_rstLow {s : State} (ho : s.seqOp = .srrst) (hs : s.seqStep.toNat = 1) :
    ustep s = .next { s with seqStep := 2 } := by
  simp only [ustep, ho, srrstRow, hs, delay_eq]

theorem ustep_srrst_rstRise {s : State} (ho : s.seqOp = .srrst) (hs : s.seqStep.toNat = 2) :
    ustep s = .next { wire .rstN true s with seqOp := .idle, seqStep := 0 } := by
  simp only [ustep, ho, srrstRow, hs]

/-! ### Micro-steps in a row -/

theorem usteps_succ {s u : State} (h : ustep s = .next u) (n : Nat) : usteps (n + 1) s = usteps n u := by
  simp only [usteps, h]

/-- Micro-steps that answer a next state may be followed by more. -/
theorem usteps_add {m : Nat} {s u : State} (h : usteps m s = .next u) (n : Nat) :
    usteps (m + n) s = usteps n u := by
  induction m generalizing s with
  | zero =>
    cases h
    rw [Nat.zero_add]
  | succ m ih =>
    obtain ⟨v, hv, hrest⟩ := usteps_succ_next h
    rw [Nat.succ_add, usteps_succ hv, ih hrest]

/-- A position that has a row of WRITE: the bit index is within the word, and zero in the latch pulse. -/
structure WritePosition (s : State) : Prop where
  seqOp_eq : s.seqOp = .write
  step_le : s.seqStep.toNat ≤ 8
  bit_lt : s.seqI.toNat < displayWidth
  bit_eq_zero : 5 ≤ s.seqStep.toNat → s.seqI = 0

/-- The next bit index of a WRITE that has bits left. -/
theorem toNat_pred_succ {i : BitVec 5} (hne : i ≠ 0) : (i - 1).toNat + 1 = i.toNat := by
  bv_omega

/-- The row that goes on to the next bit stays within the word. -/
theorem toNat_pred_lt {i : BitVec 5} (hi : i.toNat < displayWidth) (hne : i ≠ 0) : (i - 1).toNat < displayWidth := by
  have hpred := toNat_pred_succ hne
  omega

/-- At a position of WRITE the micro-step is taken; it leads to the next position, or ends the sequence, and is one of
those that were left. -/
theorem WritePosition.exists_ustep {s : State} (h : WritePosition s) :
    ∃ t, ustep s = .next t ∧ microStepsLeft t + 1 = microStepsLeft s ∧ (WritePosition t ∨ t.seqOp = .idle) := by
  obtain ⟨ho, hle, hi, hzero⟩ := h
  interval_cases hs : s.seqStep.toNat
  · exact ⟨_, ustep_write_data ho hs hi, by simp [microStepsLeft, ho, hs], .inl ⟨ho, by simp, hi, by simp⟩⟩
  · exact ⟨_, ustep_write_clkRise ho hs, by simp [microStepsLeft, ho, hs], .inl ⟨ho, by simp, hi, by simp⟩⟩
  · exact ⟨_, ustep_write_clkHigh ho hs, by simp [microStepsLeft, ho, hs], .inl ⟨ho, by simp, hi, by simp⟩⟩
  · exact ⟨_, ustep_write_clkFall ho hs, by simp [microStepsLeft, ho, hs], .inl ⟨ho, by simp, hi, by simp⟩⟩
  · by_cases hi0 : s.seqI = 0
    · exact ⟨_, ustep_write_lastBit ho hs hi0, by simp [microStepsLeft, ho, hs],
        .inl ⟨ho, by simp, hi, fun _ => hi0⟩⟩
    · have hpred := toNat_pred_succ hi0
      refine ⟨_, ustep_write_nextBit ho hs hi0, ?_, .inl ⟨ho, by simp, toNat_pred_lt hi hi0, by simp⟩⟩
      simp [microStepsLeft, ho, hs]
      omega
  · exact ⟨_, ustep_write_latchRise ho hs, by simp [microStepsLeft, ho, hs],
      .inl ⟨ho, by simp, hi, fun _ => hzero le_rfl⟩⟩
  · exact ⟨_, ustep_write_latchHigh ho hs, by simp [microStepsLeft, ho, hs],
      .inl ⟨ho, by simp, hi, fun _ => hzero (by decide)⟩⟩
  · exact ⟨_, ustep_write_latchFall ho hs, by simp [microStepsLeft, ho, hs],
      .inl ⟨ho, by simp, hi, fun _ => hzero (by decide)⟩⟩
  · exact ⟨_, ustep_write_done ho hs, by simp [microStepsLeft, ho, hs, hzero], .inr rfl⟩

/-- Any number of micro-steps of a WRITE up to those left is taken, each counted once; the count is zero only when the
sequence is over. -/
theorem exists_usteps_write {n : Nat} {s : State} (h : WritePosition s ∨ s.seqOp = .idle)
    (hn : n ≤ microStepsLeft s) :
    ∃ t, usteps n s = .next t ∧ microStepsLeft t + n = microStepsLeft s ∧ (WritePosition t ∨ t.seqOp = .idle) := by
  induction n generalizing s with
  | zero => exact ⟨s, rfl, rfl, h⟩
  | succ n ih =>
    rcases h with h | hidle
    · obtain ⟨u, hu, hleft, hpos⟩ := h.exists_ustep
      obtain ⟨t, ht, hcount, htpos⟩ := ih hpos (by omega)
      exact ⟨t, (usteps_succ hu n).trans ht, by omega, htpos⟩
    · have := microStepsLeft_idle hidle
      omega

theorem ustep_seqVal {s t : State} (h : ustep s = .next t) : t.seqVal = s.seqVal := by
  rw [ustep_frame h]

theorem usteps_seqVal {n : Nat} {s t : State} (h : usteps n s = .next t) : t.seqVal = s.seqVal :=
  usteps_keeps (P := fun u => u.seqVal = s.seqVal) (fun _ _ hu hv => (ustep_seqVal hv).trans hu) rfl h

/-- A loaded WRITE is in progress for as many micro-steps as are left, and no longer (R146). -/
theorem usteps_write_seqOp {s : State} (h : WritePosition s) :
    (∀ n, n < microStepsLeft s → ∃ t, usteps n s = .next t ∧ t.seqOp = .write) ∧
    ∃ t, usteps (microStepsLeft s) s = .next t ∧ t.seqOp = .idle := by
  constructor
  · intro n hn
    obtain ⟨t, ht, hleft, hpos | hidle⟩ := exists_usteps_write (.inl h) hn.le
    · exact ⟨t, ht, hpos.seqOp_eq⟩
    · rw [microStepsLeft_idle hidle] at hleft
      omega
  · obtain ⟨t, ht, -, -⟩ := exists_usteps_write (.inl h) le_rfl
    exact ⟨t, ht, usteps_seqOp le_rfl ht⟩

/-- Settles O29: the equations of the rows, and the count of the micro-steps that are left. -/
theorem microStepTable : Obligations.MicroStepTable := by
  intro s
  refine ⟨fun ho => ?_, fun ho => ?_, fun ho hi hs => ?_⟩
  · exact ⟨fun hs hi => ustep_write_data ho (congrArg _ hs) (Nat.lt_succ_of_le hi),
      fun hs => ustep_write_clkRise ho (congrArg _ hs), fun hs => ustep_write_clkHigh ho (congrArg _ hs),
      fun hs => ustep_write_clkFall ho (congrArg _ hs),
      fun hs hi => ustep_write_nextBit ho (congrArg _ hs) (BitVec.ne_of_lt hi).symm,
      fun hs => ustep_write_lastBit ho (congrArg _ hs), fun hs => ustep_write_latchRise ho (congrArg _ hs),
      fun hs => ustep_write_latchHigh ho (congrArg _ hs), fun hs => ustep_write_latchFall ho (congrArg _ hs),
      fun hs => ustep_write_done ho (congrArg _ hs)⟩
  · exact ⟨fun hs => ustep_srrst_rstFall ho (congrArg _ hs), fun hs => ustep_srrst_rstLow ho (congrArg _ hs),
      fun hs => ustep_srrst_rstRise ho (congrArg _ hs)⟩
  · have hpos : WritePosition s := ⟨ho, by simp [hs], by simp [hi, displayWidth], by simp [hs]⟩
    have hleft : microStepsLeft s = 5 * displayWidth + 4 := by
      rw [microStepsLeft_write ho, hi, hs]
      rfl
    obtain ⟨hbusy, t, ht, hidle⟩ := usteps_write_seqOp hpos
    rw [hleft] at hbusy ht
    refine ⟨fun n hn => ?_, t, ht, hidle, usteps_seqVal ht⟩
    obtain ⟨u, hu, hop⟩ := hbusy n hn
    exact ⟨u, hu, hop, usteps_seqVal hu⟩

/-! ### The frame of a micro-step (R147 to R149) -/

/-- A micro-step makes no wire event, or one that is not on OE_N (R148). -/
theorem ustep_wires {s t : State} (h : ustep s = .next t) :
    SameWires s t ∨ ∃ L x, L ≠ .oeN ∧ SameWires (wire L x s) t := by
  rcases ustep_next h with ⟨-, rfl⟩ | ⟨-, hw⟩ | ⟨-, hr⟩
  · exact .inl ⟨rfl, rfl, rfl⟩
  · rcases hw with ⟨-, -, rfl⟩ | ⟨-, rfl⟩ | ⟨-, rfl⟩ | ⟨-, rfl⟩ | ⟨-, -, rfl⟩ | ⟨-, -, rfl⟩ | ⟨-, rfl⟩ | ⟨-, rfl⟩ |
      ⟨-, rfl⟩ | ⟨-, rfl⟩
    · exact .inr ⟨.data, _, by decide, rfl, rfl, rfl⟩
    · exact .inr ⟨.clk, true, by decide, rfl, rfl, rfl⟩
    · exact .inl ⟨rfl, rfl, rfl⟩
    · exact .inr ⟨.clk, false, by decide, rfl, rfl, rfl⟩
    · exact .inl ⟨rfl, rfl, rfl⟩
    · exact .inl ⟨rfl, rfl, rfl⟩
    · exact .inr ⟨.latch, true, by decide, rfl, rfl, rfl⟩
    · exact .inl ⟨rfl, rfl, rfl⟩
    · exact .inr ⟨.latch, false, by decide, rfl, rfl, rfl⟩
    · exact .inl ⟨rfl, rfl, rfl⟩
  · rcases hr with ⟨-, rfl⟩ | ⟨-, rfl⟩ | ⟨-, rfl⟩
    · exact .inr ⟨.rstN, false, by decide, rfl, rfl, rfl⟩
    · exact .inl ⟨rfl, rfl, rfl⟩
    · exact .inr ⟨.rstN, true, by decide, rfl, rfl, rfl⟩

theorem Lines.set_oeN_of_ne (l : Lines) {L : Line} (hL : L ≠ .oeN) (x : Bool) : (l.set L x).oeN = l.oeN := by
  cases L with
  | oeN => exact absurd rfl hL
  | _ => rfl

/-- Settles O30: the frame, and the one event the row may make. -/
theorem microStepsTouchOnlyTheSerialDriver : Obligations.MicroStepsTouchOnlyTheSerialDriver := by
  intro s t h
  refine ⟨ustep_frame h, ?_⟩
  rcases ustep_wires h with ⟨hlines, -, htrace⟩ | ⟨L, x, hL, hlines, -, htrace⟩
  · exact ⟨by rw [hlines], .inl htrace⟩
  · exact ⟨by rw [hlines, wire_lines, Lines.set_oeN_of_ne _ hL], .inr ⟨L, x, hL, htrace⟩⟩

/-- The rows read none of what the handler and the pins write, so writing it first makes no difference (R149). -/
theorem ustep_setInputs {s t : State} (h : ustep s = .next t) (lc wake : Bool) (edge pin : Nibble) :
    ustep { s with lcPending := lc, edgePending := edge, pin := pin, wakeLatch := wake } =
      .next { t with lcPending := lc, edgePending := edge, pin := pin, wakeLatch := wake } := by
  rcases ustep_next h with ⟨ho, rfl⟩ | ⟨ho, hw⟩ | ⟨ho, hr⟩
  · exact passes_ustep ho
  · rcases hw with ⟨hs, hi, rfl⟩ | ⟨hs, rfl⟩ | ⟨hs, rfl⟩ | ⟨hs, rfl⟩ | ⟨hs, hi, rfl⟩ | ⟨hs, hi, rfl⟩ | ⟨hs, rfl⟩ |
      ⟨hs, rfl⟩ | ⟨hs, rfl⟩ | ⟨hs, rfl⟩
    · exact ustep_write_data ho hs hi
    · exact ustep_write_clkRise ho hs
    · exact ustep_write_clkHigh ho hs
    · exact ustep_write_clkFall ho hs
    · exact ustep_write_lastBit ho hs hi
    · exact ustep_write_nextBit ho hs hi
    · exact ustep_write_latchRise ho hs
    · exact ustep_write_latchHigh ho hs
    · exact ustep_write_latchFall ho hs
    · exact ustep_write_done ho hs
  · rcases hr with ⟨hs, rfl⟩ | ⟨hs, rfl⟩ | ⟨hs, rfl⟩
    · exact ustep_srrst_rstFall ho hs
    · exact ustep_srrst_rstLow ho hs
    · exact ustep_srrst_rstRise ho hs

/-- Settles O40: what the handler and a pin change write is what the rows do not read, from fields that a micro-step
leaves. -/
theorem microStepsCommuteWithHandlerAndPins : Obligations.MicroStepsCommuteWithHandlerAndPins := by
  intro s t h
  have hirq : takeInterrupt t = { t with
      lcPending := false, edgePending := 0, pin := s.pin,
      wakeLatch := if s.gstate = .asleep then true else s.wakeLatch } := by
    rw [ustep_frame h]
    rfl
  have hpin (p : Nibble) : pinChange p t = { t with
      lcPending := true, edgePending := s.edgePending ||| selectedEdges s.pin p (edgeSel s.intcfg), pin := p,
      wakeLatch := s.wakeLatch } := by
    rw [ustep_frame h]
    rfl
  refine ⟨?_, fun p => ?_, ?_⟩
  · rw [hirq]
    exact ustep_setInputs h _ _ _ _
  · rw [hpin p]
    exact ustep_setInputs h _ _ _ _
  · rw [ustep_frame h]
    rfl

/-! ### Accepting OE, SRRST and WRITE (R140, R145) -/

theorem exec_oe {f : Bool} {s : State} (hr : cmdReady s = true) (hp : s.phase = 0 ∨ s.phase = 2) :
    exec (.oe f) s = .next (wire .oeN (!f) s) := by
  rw [exec, execOe, accepting_app hr hp]

theorem exec_srrst {s : State} (hr : cmdReady s = true) (hp : s.phase = 0 ∨ s.phase = 2) :
    exec .srrst s = .next { s with seqOp := .srrst, seqStep := 0 } := by
  rw [exec, execSrrst, accepting_app hr hp]

theorem exec_write {v : Display} {s : State} (hr : cmdReady s = true) (hp : s.phase = 0 ∨ s.phase = 2) :
    exec (.write v) s = .next { s with seqOp := .write, seqVal := v, seqI := 16, seqStep := 0 } := by
  rw [exec, execWrite, accepting_app hr hp]

/-- A block with a sequence in progress is not ready (R82). -/
theorem cmdReady_busy {s : State} (h : s.seqOp ≠ .idle) : cmdReady s = false := by
  simp [cmdReady, h]

/-- Settles O27: the step is the one wire event, on a line that the external register does not read. -/
theorem oeDrivesTheEnableLine : Obligations.OeDrivesTheEnableLine :=
  ⟨rfl, rfl, fun f s hr hp => by rw [exec_oe hr hp, wire_oeN]⟩

/-- Settles O28: the two effects, and a block with a loaded sequence is not ready. -/
theorem writeAndSrrstLoadTheSequencer : Obligations.WriteAndSrrstLoadTheSequencer := by
  intro s hr hp
  refine ⟨fun v => exec_write hr hp, exec_srrst hr hp, ?_⟩
  rintro v t (h | h)
  · cases (exec_write hr hp).symm.trans h
    exact cmdReady_busy (by simp)
  · cases (exec_srrst hr hp).symm.trans h
    exact cmdReady_busy (by simp)

/-! ### The external register (R156 to R161) -/

theorem Ext.react_clkRise {l : Lines} (hclk : l.clk = false) (hrst : l.rstN = true) (e : Ext) :
    e.react l ⟨.clk, true⟩ = ⟨shiftIn l.data e.chain, e.out⟩ := by
  simp [Ext.react, hclk, hrst]

/-- No clock edge without a rise of CLK, and none counts while RST_N is low. -/
theorem Ext.react_clkRise_of_not {l : Lines} (h : ¬(l.clk = false ∧ l.rstN = true)) (e : Ext) :
    e.react l ⟨.clk, true⟩ = e := if_neg h

theorem Ext.react_latchRise {l : Lines} (h : l.latch = false) (e : Ext) :
    e.react l ⟨.latch, true⟩ = ⟨e.chain, e.chain⟩ := if_pos h

theorem Ext.react_latchRise_of_high {l : Lines} (h : l.latch = true) (e : Ext) :
    e.react l ⟨.latch, true⟩ = e := if_neg (by simp [h])

theorem getElem?_shiftIn_succ {d : Bool} {chain : List (Option Bool)} {i : Nat} (hi : i + 1 < displayWidth) :
    (shiftIn d chain)[i + 1]? = chain[i]? := by
  rw [shiftIn, List.getElem?_take_of_lt hi, List.getElem?_cons_succ]

/-- Settles O38: the reactions of the register, event by event. -/
theorem wireEventsDriveTheExternalRegister : Obligations.WireEventsDriveTheExternalRegister := by
  intro l e hlen
  refine ⟨fun hclk hrst => ?_, fun hlatch => Ext.react_latchRise hlatch e, rfl,
    fun x => ⟨rfl, Ext.react_oeN l e x⟩, rfl, rfl, rfl, fun hclk => Ext.react_clkRise_of_not (by simp [hclk]) e,
    fun hrst => Ext.react_clkRise_of_not (by simp [hrst]) e, fun hlatch => Ext.react_latchRise_of_high hlatch e⟩
  rw [Ext.react_clkRise hclk hrst]
  exact ⟨rfl, shiftIn_length l.data hlen, rfl, fun i hi => getElem?_shiftIn_succ hi⟩

theorem ExtInv.of_atMostOneEvent {s t : State} (hs : ExtInv s) (h : AtMostOneEvent s t) : ExtInv t := by
  obtain ⟨hchain, hout⟩ := hs
  rcases h with ⟨-, hext, -⟩ | ⟨L, x, -, hext, -⟩
  · rw [ExtInv, hext]
    exact ⟨hchain, hout⟩
  · rw [ExtInv, hext]
    exact s.ext.react_lengths s.lines ⟨L, x⟩ hchain hout

theorem takeTurn_extInv {u : Turn} {s t : State} (hs : ExtInv s) (h : takeTurn u s = .next t) : ExtInv t := by
  rcases takeTurn_atMostOneEvent h with ⟨p, -, rfl⟩ | he
  · exact extInv_powerOn s.params p
  · exact hs.of_atMostOneEvent he

/-- Settles O59: a wire event keeps both lengths, and a power cycle starts with them. -/
theorem externalRegisterKeepsItsWidth : Obligations.ExternalRegisterKeepsItsWidth :=
  fun _ _ hs h => step_keeps (fun _ _ h => h) (fun _ _ _ => takeTurn_extInv) hs h

/-! ### A complete WRITE and a complete SRRST (R141, R142, R162) -/

/-- The shift stages after the low `n` bits of `v` have been shifted in, bit `n - 1` first, from the stages `chain`. -/
def shiftedWord (v : Display) (n : Nat) (chain : List (Option Bool)) : List (Option Bool) :=
  ((List.range n).map (fun i => some (v.getLsbD i)) ++ chain).take displayWidth

theorem shiftedWord_succ (v : Display) (n : Nat) (chain : List (Option Bool)) :
    shiftedWord v (n + 1) chain = shiftedWord v n (shiftIn (v.getLsbD n) chain) := by
  simp [shiftedWord, shiftIn, List.range_succ, List.take_append, -List.take_succ_cons, List.take_take]

/-- After `W` bits nothing is left of the old stages (R162). -/
theorem shiftedWord_displayWidth (v : Display) (chain : List (Option Bool)) :
    shiftedWord v displayWidth chain = specified v :=
  List.take_left' (by simp)

/-- The wire events of the low `n` bits of `v`, bit `n - 1` first. -/
def bitsEvents (v : Display) (n : Nat) : List WireEvent :=
  (List.range n).reverse.flatMap fun i => bitEvents (v.getLsbD i)

theorem bitsEvents_succ (v : Display) (n : Nat) :
    bitsEvents v (n + 1) = bitEvents (v.getLsbD n) ++ bitsEvents v n := by
  simp [bitsEvents, List.range_succ]

theorem writeEvents_eq (v : Display) :
    writeEvents v = bitsEvents v displayWidth ++ [⟨.latch, true⟩, ⟨.latch, false⟩] := rfl

/-- One bit on the wires, from an idle clock: DATA takes the bit and the stages shift once. -/
theorem wire_bit {s : State} (hclk : s.lines.clk = false) (hrst : s.lines.rstN = true) (x : Bool) :
    wire .clk false (wire .clk true (wire .data x s)) = { s with
      lines := { s.lines with data := x }
      ext := ⟨shiftIn x s.ext.chain, s.ext.out⟩
      trace := s.trace ++ bitEvents x } := by
  simp [wire, Ext.react, Lines.set, bitEvents, hclk, hrst]

/-- The latch pulse, from an idle latch: the stages are copied to the outputs (R158). -/
theorem wire_latchPulse {s : State} (hlatch : s.lines.latch = false) :
    wire .latch false (wire .latch true s) = { s with
      ext := ⟨s.ext.chain, s.ext.chain⟩
      trace := s.trace ++ [⟨.latch, true⟩, ⟨.latch, false⟩] } := by
  simp [wire, Ext.react, Lines.set, ← hlatch]

/-- The first four micro-steps of bit `n`, from an idle clock. Here and below `by exact` and `by rfl` wait
until the goal has told which state the micro-step is taken in. -/
theorem usteps_bit {n : Nat} {s : State} (ho : s.seqOp = .write) (hs : s.seqStep.toNat = 0) (hi : s.seqI.toNat = n)
    (hn : n < displayWidth) (hclk : s.lines.clk = false) (hrst : s.lines.rstN = true) :
    usteps 4 s = .next { s with
      seqStep := 4
      lines := { s.lines with data := s.seqVal.getLsbD n }
      ext := ⟨shiftIn (s.seqVal.getLsbD n) s.ext.chain, s.ext.out⟩
      trace := s.trace ++ bitEvents (s.seqVal.getLsbD n) } := by
  subst hi
  calc usteps 4 s
    _ = .next { wire .clk false (wire .clk true (wire .data (displayBit s.seqVal s.seqI) s)) with seqStep := 4 } := by
      rw [usteps_succ (ustep_write_data ho hs hn)]
      refine (usteps_succ (ustep_write_clkRise (by exact ho) (by rfl)) _).trans ?_
      refine (usteps_succ (ustep_write_clkHigh (by exact ho) (by rfl)) _).trans ?_
      exact usteps_succ (ustep_write_clkFall (by exact ho) (by rfl)) _
    _ = _ := by
      rw [wire_bit hclk hrst]
      rfl

/-- The last four micro-steps of a WRITE, from an idle latch. -/
theorem usteps_latchPulse {s : State} (ho : s.seqOp = .write) (hs : s.seqStep.toNat = 5)
    (hlatch : s.lines.latch = false) :
    usteps 4 s = .next { s with
      seqOp := .idle
      seqI := 0
      seqStep := 0
      ext := ⟨s.ext.chain, s.ext.chain⟩
      trace := s.trace ++ [⟨.latch, true⟩, ⟨.latch, false⟩] } := by
  calc usteps 4 s
    _ = .next { wire .latch false (wire .latch true s) with seqOp := .idle, seqStep := 0, seqI := 0 } := by
      rw [usteps_succ (ustep_write_latchRise ho hs)]
      refine (usteps_succ (ustep_write_latchHigh (by exact ho) (by rfl)) _).trans ?_
      refine (usteps_succ (ustep_write_latchFall (by exact ho) (by rfl)) _).trans ?_
      exact usteps_succ (ustep_write_done (by exact ho) (by rfl)) _
    _ = _ := by rw [wire_latchPulse hlatch]

/-- From the start of bit `n` the micro-steps of the bits down to 0. -/
theorem usteps_bits {n : Nat} {s : State} (ho : s.seqOp = .write) (hs : s.seqStep.toNat = 0) (hi : s.seqI.toNat = n)
    (hn : n < displayWidth) (hclk : s.lines.clk = false) (hrst : s.lines.rstN = true) :
    usteps (5 * (n + 1)) s = .next { s with
      seqI := 0
      seqStep := 5
      lines := { s.lines with data := s.seqVal.getLsbD 0 }
      ext := ⟨shiftedWord s.seqVal (n + 1) s.ext.chain, s.ext.out⟩
      trace := s.trace ++ bitsEvents s.seqVal (n + 1) } := by
  induction n generalizing s with
  | zero =>
    have hzero : s.seqI = 0 := BitVec.eq_of_toNat_eq hi
    rw [show 5 * (0 + 1) = 4 + (0 + 1) from rfl, usteps_add (usteps_bit ho hs hi hn hclk hrst)]
    refine (usteps_succ (ustep_write_lastBit (by exact ho) (by rfl) (by exact hzero)) 0).trans ?_
    rw [← hzero]
    rfl
  | succ n ih =>
    have hne : s.seqI ≠ 0 := by bv_omega
    have hpred : (s.seqI - 1).toNat = n := Nat.succ_injective ((toNat_pred_succ hne).trans hi)
    rw [shiftedWord_succ, bitsEvents_succ, ← List.append_assoc, show 5 * (n + 1 + 1) = 4 + (5 * (n + 1) + 1) by omega,
      usteps_add (usteps_bit ho hs hi hn hclk hrst)]
    refine (usteps_succ (ustep_write_nextBit (by exact ho) (by rfl) (by exact hne)) _).trans ?_
    exact ih (by exact ho) (by rfl) (by exact hpred) (by omega) (by exact hclk) (by exact hrst)

/-- From its loading to its end, a WRITE shifts its word in and latches it (R142, R162). -/
theorem usteps_write {s : State} (ho : s.seqOp = .write) (hs : s.seqStep = 0) (hi : s.seqI = 16)
    (hclk : s.lines.clk = false) (hlatch : s.lines.latch = false) (hrst : s.lines.rstN = true) :
    usteps (5 * displayWidth + 4) s = .next { s with
      seqOp := .idle
      seqI := 0
      seqStep := 0
      lines := { s.lines with data := s.seqVal.getLsbD 0 }
      ext := ⟨specified s.seqVal, specified s.seqVal⟩
      trace := s.trace ++ writeEvents s.seqVal } := by
  rw [usteps_add (usteps_bits (n := 16) ho (congrArg _ hs) (congrArg _ hi) (Nat.lt_succ_self 16) hclk hrst)]
  refine (usteps_latchPulse (by exact ho) (by rfl) (by exact hlatch)).trans ?_
  rw [show 16 + 1 = displayWidth from rfl, shiftedWord_displayWidth, List.append_assoc, ← writeEvents_eq]

theorem runWhole_of_exec {i : Instr} {s u : State} (h : exec i s = .next u) :
    runWhole i s = usteps (microSteps i) u := by
  simp only [runWhole, h]

theorem runProgram_cons {i : Instr} {s t : State} (h : runWhole i s = .next t) (is : List Instr) :
    runProgram (i :: is) s = runProgram is t := by
  simp only [runProgram, h]

/-- The opcode and the operand share no bit, so the word is their sum (R142). -/
theorem encode_write (v : Display) : encode (.write v) = 0x0E0000 + v.setWidth 21 := by
  have hdisjoint : (0x0E0000 : CmdWord) &&& v.setWidth 21 = 0 := by
    ext k hk
    interval_cases k <;> simp
  rw [BitVec.add_eq_or_of_and_eq_zero _ _ hdisjoint]
  rfl

/-- A complete WRITE, from a ready block with idle lines. -/
theorem runWhole_write {s : State} (v : Display) (hr : cmdReady s = true) (hp : s.phase = 0 ∨ s.phase = 2)
    (hclk : s.lines.clk = false) (hlatch : s.lines.latch = false) (hrst : s.lines.rstN = true) :
    runWhole (.write v) s = .next { s with
      seqVal := v
      seqI := 0
      seqStep := 0
      lines := { s.lines with data := v.getLsbD 0 }
      ext := ⟨specified v, specified v⟩
      trace := s.trace ++ writeEvents v } := by
  obtain ⟨-, hidle⟩ := (cmdReady_iff s).mp hr
  rw [runWhole_of_exec (exec_write hr hp)]
  refine (usteps_write (by rfl) (by rfl) (by rfl) (by exact hclk) (by exact hlatch) (by exact hrst)).trans ?_
  rw [← hidle]

/-- Settles O31: the bits shifted in fill every stage, so the register's old state does not matter. -/
theorem wholeWriteShiftsAndLatchesTheWord : Obligations.WholeWriteShiftsAndLatchesTheWord :=
  fun v _ => ⟨encode_write v, fun hr hp hclk hlatch hrst _ => runWhole_write v hr hp hclk hlatch hrst⟩

theorem zeroChain_eq_specified : zeroChain = specified 0 := rfl

/-- From its loading to its end, a SRRST clears the stages (R141, R159). -/
theorem usteps_srrst {s : State} (ho : s.seqOp = .srrst) (hs : s.seqStep = 0) (hrst : s.lines.rstN = true) :
    usteps 3 s = .next { s with
      seqOp := .idle
      seqStep := 0
      ext := ⟨specified 0, s.ext.out⟩
      trace := s.trace ++ srrstEvents } := by
  calc usteps 3 s
    _ = .next { wire .rstN true (wire .rstN false s) with seqOp := .idle, seqStep := 0 } := by
      rw [usteps_succ (ustep_srrst_rstFall ho (congrArg _ hs))]
      refine (usteps_succ (ustep_srrst_rstLow (by exact ho) (by rfl)) _).trans ?_
      exact usteps_succ (ustep_srrst_rstRise (by exact ho) (by rfl)) _
    _ = _ := by simp [wire, Ext.react, Lines.set, srrstEvents, zeroChain_eq_specified, ← hrst]

/-- Settles O32: the reset pulse, from the loaded sequence to its end. -/
theorem wholeSrrstClearsTheStages : Obligations.WholeSrrstClearsTheStages := by
  refine ⟨rfl, fun s hr hp hrst => ?_⟩
  obtain ⟨-, hidle⟩ := (cmdReady_iff s).mp hr
  rw [runWhole_of_exec (exec_srrst hr hp)]
  refine (usteps_srrst (by rfl) (by rfl) (by exact hrst)).trans ?_
  rw [← hidle]
  rfl

/-! ### The bits on the wires (R153) -/

theorem bitsSeen_bitEvents (d x : Bool) (evs : List WireEvent) :
    bitsSeen d (bitEvents x ++ evs) = x :: bitsSeen x evs := rfl

/-- The bits seen are the bits sent, one a clock edge, and the latch pulse shows none. -/
theorem bitsSeen_flatMap_bitEvents {α : Type} (f : α → Bool) (is : List α) (d : Bool) :
    bitsSeen d ((is.flatMap fun i => bitEvents (f i)) ++ [⟨.latch, true⟩, ⟨.latch, false⟩]) = is.map f := by
  induction is generalizing d with
  | nil => rfl
  | cons i is ih => rw [List.flatMap_cons, List.append_assoc, bitsSeen_bitEvents, ih, List.map_cons]

/-- Settles O33: the bits seen are the bits sent, in the order of `writeEvents`. -/
theorem bitsSeenAreMsbFirst : Obligations.BitsSeenAreMsbFirst := by
  intro d v
  constructor
  · rfl
  · rw [writeEvents, bitsSeen_flatMap_bitEvents]
    rfl

/-! ### The levels of the lines (R146, R150) -/

theorem linesInv_idle {s : State} (ho : s.seqOp = .idle) :
    LinesInv s ↔ s.lines.clk = false ∧ s.lines.latch = false ∧ s.lines.rstN = true := by
  simp [LinesInv, ho]

theorem linesInv_write {s : State} (ho : s.seqOp = .write) :
    LinesInv s ↔
      s.lines.rstN = true ∧ s.seqStep.toNat ≤ 8 ∧ s.seqI.toNat < displayWidth ∧ (5 ≤ s.seqStep.toNat → s.seqI = 0)
        ∧ (s.lines.clk = true ↔ s.seqStep.toNat = 2 ∨ s.seqStep.toNat = 3)
        ∧ (s.lines.latch = true ↔ s.seqStep.toNat = 6 ∨ s.seqStep.toNat = 7) := by
  simp [LinesInv, ho]

theorem linesInv_srrst {s : State} (ho : s.seqOp = .srrst) :
    LinesInv s ↔
      s.lines.clk = false ∧ s.lines.latch = false ∧ s.seqStep.toNat ≤ 2
        ∧ (s.lines.rstN = true ↔ s.seqStep.toNat = 0) := by
  simp [LinesInv, ho]

/-- Each row of the table leaves the levels of the position it leads to: it drives the one line on which the two positions
differ. Only the index of the next bit needs an argument of its own (R146, R150). -/
theorem ustep_linesInv {s t : State} (hs : LinesInv s) (h : ustep s = .next t) : LinesInv t := by
  rcases ustep_next h with ⟨-, rfl⟩ | ⟨ho, hw⟩ | ⟨ho, hr⟩
  · exact hs
  · obtain ⟨hrst, -, hi, hlast, hclk, hlatch⟩ := (linesInv_write ho).mp hs
    rcases hw with ⟨hstep, -, rfl⟩ | ⟨hstep, rfl⟩ | ⟨hstep, rfl⟩ | ⟨hstep, rfl⟩ | ⟨hstep, hi0, rfl⟩ |
      ⟨hstep, hi0, rfl⟩ | ⟨hstep, rfl⟩ | ⟨hstep, rfl⟩ | ⟨hstep, rfl⟩ | ⟨hstep, rfl⟩
    on_goal 6 => have hpred := toNat_pred_lt hi hi0
    all_goals simp_all [LinesInv, Lines.set]
  · obtain ⟨hclk, hlatch, -, hrst⟩ := (linesInv_srrst ho).mp hs
    rcases hr with ⟨hstep, rfl⟩ | ⟨hstep, rfl⟩ | ⟨hstep, rfl⟩ <;> simp_all [LinesInv, Lines.set]

/-- A command is accepted between sequences, where the lines are idle: it leaves them idle, or loads a sequence at its
first position, or drives OE_N, which the invariant does not read. -/
theorem exec_linesInv {i : Instr} {s t : State} (hs : LinesInv s) (h : exec i s = .next t) : LinesInv t := by
  rcases exec_next h with ⟨-, rfl⟩ | ⟨hready, -, he⟩
  · exact hs
  · obtain ⟨-, ho⟩ := (cmdReady_iff s).mp hready
    obtain ⟨hclk, hlatch, hrst⟩ := (linesInv_idle ho).mp hs
    cases i with
    | srrst =>
      change t = _ at he
      subst he
      exact (linesInv_srrst rfl).mpr ⟨hclk, hlatch, Nat.zero_le 2, by simp [hrst]⟩
    | write v =>
      change t = _ at he
      subst he
      exact (linesInv_write rfl).mpr
        ⟨hrst, Nat.zero_le 8, Nat.lt_succ_self 16, by simp, by simp [hclk], by simp [hlatch]⟩
    | gov f =>
      cases f with
      | true =>
        change t = _ at he
        subst he
        exact hs
      | false =>
        obtain ⟨k, -, rfl⟩ := he
        split <;> exact hs
    | _ =>
      change t = _ at he
      subst he
      exact hs

/-- Every turn keeps the levels: the handler, the return and a pin change leave the lines but OE_N. -/
theorem takeTurn_linesInv {u : Turn} {s t : State} (hs : LinesInv s) (h : takeTurn u s = .next t) : LinesInv t := by
  rcases takeTurn_next h with rfl | ⟨i, w, ws, -, -, -, -, he⟩ | ⟨-, hu⟩ | ⟨-, -, rfl⟩ | ⟨-, -, rfl⟩ |
    ⟨p, -, -, rfl⟩ | ⟨p, -, rfl⟩
  · exact hs
  · exact exec_linesInv (s := { s with cmds := ws }) hs he
  · exact ustep_linesInv hs hu
  · exact hs
  · exact hs
  · exact hs
  · exact linesInv_powerOn s.params p

/-- Settles O37: every turn keeps the levels of the position, and a step is a turn or waits. -/
theorem linesAreIdleBetweenSequences : Obligations.LinesAreIdleBetweenSequences :=
  fun _ _ hs h => step_keeps (fun _ _ h => h) (fun _ _ _ => takeTurn_linesInv) hs h

/-! ### Complete WRITEs one after the other (R154, R163) -/

/-- What a complete WRITE needs of the block, and leaves. -/
structure ReadyForSerial (s : State) : Prop where
  ready : cmdReady s = true
  phase : s.phase = 0 ∨ s.phase = 2
  lines : LinesInv s

/-- A complete WRITE leaves the block ready for the next one. -/
theorem ReadyForSerial.runWhole_write {s : State} (h : ReadyForSerial s) (v : Display) :
    ∃ t, runWhole (.write v) s = .next t ∧ ReadyForSerial t ∧ t.ext = ⟨specified v, specified v⟩ ∧
      t.trace = s.trace ++ writeEvents v := by
  obtain ⟨hr, hp, hlines⟩ := h
  obtain ⟨-, hidle⟩ := (cmdReady_iff s).mp hr
  obtain ⟨hclk, hlatch, hrst⟩ := (linesInv_idle hidle).mp hlines
  exact ⟨_, Machine.runWhole_write v hr hp hclk hlatch hrst,
    ⟨hr, hp, (linesInv_idle (by exact hidle)).mpr ⟨hclk, hlatch, hrst⟩⟩, rfl, rfl⟩

/-- Settles O34: the first WRITE leaves the block as the second needs it, and both make `events(v)`. -/
theorem writeTwiceIsIdempotent : Obligations.WriteTwiceIsIdempotent := by
  intro v s hr hp hlines _
  obtain ⟨t, ht, hready, htext, httrace⟩ := ReadyForSerial.runWhole_write ⟨hr, hp, hlines⟩ v
  obtain ⟨u, hu, -, huext, hutrace⟩ := hready.runWhole_write v
  have hbits (d : Bool) := (bitsSeenAreMsbFirst d v).2
  exact ⟨t, u, writeEvents v, ht, hu, httrace, hutrace, by rw [hbits, hbits], huext.trans htext.symm⟩

/-- Settles O35: three complete WRITEs, each from what the one before it left. -/
theorem roundTripLeavesZero : Obligations.RoundTripLeavesZero := by
  intro s hr hp hlines _
  obtain ⟨t₁, h₁, hready₁, -⟩ := ReadyForSerial.runWhole_write ⟨hr, hp, hlines⟩ 0
  obtain ⟨t₂, h₂, hready₂, hext₂, -⟩ := hready₁.runWhole_write 0x1FFFF
  obtain ⟨t₃, h₃, -, hext₃, -⟩ := hready₂.runWhole_write 0
  refine ⟨t₂, t₃, ?_, by rw [hext₂], ?_, by rw [hext₃]⟩
  · rw [runProgram_cons h₁, runProgram_cons h₂, runProgram]
  · rw [runProgram_cons h₁, runProgram_cons h₂, runProgram_cons h₃, runProgram]

/-! ### The LEDs (R160, 93_implementation_defined.md U3) -/

theorem shifting_iff (s : State) :
    shifting s = true ↔ s.seqOp = .write ∧ s.seqStep.toNat ≤ 5 ∧ (s.seqI.toNat < 16 ∨ 2 ≤ s.seqStep.toNat) := by
  simp [shifting, and_assoc]

theorem led_disabled {s : State} (h : s.lines.oeN = true) (i : Nat) : led s i = some false := if_pos h

theorem led_enabled {s : State} {i : Nat} {x : Option Bool} (hoe : s.lines.oeN = false) (hshift : ¬shifting s = true)
    (hx : s.ext.out[i]? = some x) : led s i = x := by
  simp [led, hoe, hshift, hx]

theorem led_shifting {s : State} (hoe : s.lines.oeN = false) (hshift : shifting s = true) (i : Nat) :
    led s i = none := by
  simp [led, hoe, hshift]

/-- Settles O39: dark while disabled; enabled, `shifting` tells the stretch of U3 from the rest. -/
theorem ledsShowTheLatchedWordWhenEnabled : Obligations.LedsShowTheLatchedWordWhenEnabled := by
  intro s i
  refine ⟨fun hoe => led_disabled hoe i, fun hoe ho x hx => ?_, fun hoe ho houtside x hx => ?_,
    fun hoe ho hstep hbegun => led_shifting hoe ((shifting_iff s).mpr ⟨ho, hstep, hbegun⟩) i⟩
  · exact led_enabled hoe (fun hshift => ho ((shifting_iff s).mp hshift).1) hx
  · refine led_enabled hoe (fun hshift => ?_) hx
    obtain ⟨-, hle, hbegun⟩ := (shifting_iff s).mp hshift
    rcases houtside with hlatched | ⟨hi, hlt⟩
    · omega
    · have hfirst : s.seqI.toNat = 16 := congrArg _ hi
      omega

end Sys2Proof.Machine

/-! Proof of the statement about the governor's range, for every step of every agent (42_governor.md). -/

namespace Sys2Proof.Machine

/-! ### The governor (R184, R187) -/

/-- While Active the invariant asks for the range of the timer and for no wake. -/
theorem GovernorInv.of_active {s : State} (htimeout : 1 ≤ s.params.idleTimeoutTicks) (hphase : s.phase ≠ 3)
    (hactive : s.gstate = .active) (hpos : 1 ≤ s.idleTimer) (hle : s.idleTimer ≤ s.params.idleTimeoutTicks)
    (hwake : s.wakeLatch = false) : GovernorInv s where
  timeout_pos := htimeout
  phase_ne := hphase
  awake := fun _ => ⟨hpos, hle, hwake⟩
  sleeping := fun hasleep => nomatch hactive.symm.trans hasleep

theorem phaseAfter_ne_three (i : Instr) {p : BitVec 2} (hp : p ≠ 3) : i.phaseAfter p ≠ 3 := by
  cases i with
  | sample | deb | gov f => simp [Instr.phaseAfter]
  | _ => exact hp

/-- A command is accepted only while Active. It leaves the timer or reloads it, or counts it down, and the tick that
reaches zero is sleep entry (R183, R184). -/
theorem exec_governorInv {i : Instr} {s t : State} (hs : GovernorInv s) (h : exec i s = .next t) : GovernorInv t := by
  rcases exec_next h with ⟨-, rfl⟩ | ⟨hready, -, he⟩
  · exact hs
  · obtain ⟨hactive, ho⟩ := (cmdReady_iff s).mp hready
    obtain ⟨hpos, hle, hwake⟩ := hs.awake hactive
    have htimeout := hs.timeout_pos
    have hphase : t.phase ≠ 3 := exec_phase hready h ▸ phaseAfter_ne_three i hs.phase_ne
    cases i with
    | gov f =>
      cases f with
      | true =>
        change t = _ at he
        subst he
        exact .of_active htimeout hphase hactive htimeout le_rfl hwake
      | false =>
        obtain ⟨k, hk, rfl⟩ := he
        by_cases hzero : k = 0
        · subst hzero
          exact ⟨htimeout, hphase, (nomatch ·), fun _ => ⟨rfl, ho, rfl, rfl, rfl⟩⟩
        · rw [if_neg hzero] at hphase ⊢
          have hk_le : k ≤ s.params.idleTimeoutTicks := by omega
          exact .of_active htimeout hphase hactive (Nat.one_le_iff_ne_zero.mpr hzero) hk_le hwake
    | _ =>
      change t = _ at he
      subst he
      exact .of_active htimeout hphase hactive hpos hle hwake

/-- A micro-step is taken only while Active, and leaves what the invariant reads there; asleep it passes (R147). -/
theorem ustep_governorInv {s t : State} (hs : GovernorInv s) (h : ustep s = .next t) : GovernorInv t := by
  cases hg : s.gstate with
  | active =>
    obtain ⟨hpos, hle, hwake⟩ := hs.awake hg
    rw [ustep_frame h]
    exact .of_active hs.timeout_pos hs.phase_ne hg hpos hle hwake
  | asleep =>
    obtain ⟨-, ho, -⟩ := hs.sleeping hg
    cases (passes_ustep ho).symm.trans h
    exact hs

/-- The handler records a wake only while asleep (R219). -/
theorem takeInterrupt_governorInv {s : State} (hs : GovernorInv s) : GovernorInv (takeInterrupt s) where
  timeout_pos := hs.timeout_pos
  phase_ne := hs.phase_ne
  awake := fun (hactive : s.gstate = .active) => by simpa [hactive] using hs.awake hactive
  sleeping := hs.sleeping

/-- Every turn keeps the range: a return from sleep and a power cycle start with the full timer. -/
theorem takeTurn_governorInv {u : Turn} {s t : State} (hs : GovernorInv s) (h : takeTurn u s = .next t) :
    GovernorInv t := by
  rcases takeTurn_next h with rfl | ⟨i, w, ws, -, -, -, -, he⟩ | ⟨-, hu⟩ | ⟨-, -, rfl⟩ | ⟨-, -, rfl⟩ |
    ⟨p, -, -, rfl⟩ | ⟨p, -, rfl⟩
  · exact hs
  · exact exec_governorInv (s := { s with cmds := ws }) { hs with } he
  · exact ustep_governorInv hs hu
  · exact .of_active hs.timeout_pos hs.phase_ne rfl hs.timeout_pos le_rfl rfl
  · exact takeInterrupt_governorInv hs
  · exact { hs with }
  · exact { governorInv_powerOn hs.timeout_pos p with }

/-- Settles O46: every turn keeps the range, and a step is a turn or waits. -/
theorem governorKeepsItsRange : Obligations.GovernorKeepsItsRange :=
  fun _ _ hs h => step_keeps (fun _ _ h => { h with }) (fun _ _ _ => takeTurn_governorInv) hs h

end Sys2Proof.Machine

/-! Proofs of the statements about the governor: its three commands, the exact timeout, the wake and the hung block
(42_governor.md). -/

namespace Sys2Proof

/-- A command's opcode and an operand of its format share no bit, so the word is their sum (R81). -/
theorem cmdWord_operand_eq_add {w : Nat} (hw : w ≤ 17) (op : BitVec 4) (x : BitVec w) :
    cmdWord op (x.setWidth 17) = cmdWord op 0 + x.setWidth 21 := by
  have hdisjoint : cmdWord op 0 &&& x.setWidth 21 = 0 := by
    ext k hk
    by_cases h : k < 17
    · simp [getElem_cmdWord, h]
    · simp [BitVec.getLsbD_of_ge x k (by omega)]
  rw [BitVec.add_eq_or_of_and_eq_zero _ _ hdisjoint]
  ext k hk
  by_cases h : k < 17
  · simp [getElem_cmdWord, h]
  · simp [getElem_cmdWord, h, BitVec.getLsbD_of_ge x k (by omega)]

end Sys2Proof

namespace Sys2Proof.Machine

/-! ### STATUS and CFGINT (R192, R193) -/

theorem exec_status {v : Nibble} {s : State} (hr : cmdReady s = true) (hp : s.phase = 0 ∨ s.phase = 2) :
    exec (.status v) s = .next { s with status := v } := by
  rw [exec, execStatus, accepting_app hr hp]

theorem exec_cfgint {c : IntCfg} {s : State} (hr : cmdReady s = true) (hp : s.phase = 0 ∨ s.phase = 2) :
    exec (.cfgint c) s = .next { s with intcfg := c } := by
  rw [exec, execCfgint, accepting_app hr hp]

/-- Settles O43: the word is opcode and operand, and the effect is the one write. -/
theorem statusWritesTheIndicators : Obligations.StatusWritesTheIndicators :=
  fun v _ => ⟨cmdWord_operand_eq_add (by decide) 0x8 v, exec_status⟩

theorem getLsbD_edgeEn (c : IntCfg) {k : Nat} (hk : k < 4) : (edgeEn c).getLsbD k = c.getLsbD (k + 1) := by
  simp [edgeEn, hk, Nat.add_comm]

theorem getLsbD_edgeSel (c : IntCfg) {k : Nat} (hk : k < 4) : (edgeSel c).getLsbD k = c.getLsbD (k + 5) := by
  simp [edgeSel, hk, Nat.add_comm]

/-- Settles O44: the effect is the one write of the operand, whose fields stand where R37 puts them. -/
theorem cfgintWritesTheConfiguration : Obligations.CfgintWritesTheConfiguration :=
  fun c _ => ⟨cmdWord_operand_eq_add (by decide) 0xA c, fun hr hp =>
    ⟨_, exec_cfgint hr hp, rfl, rfl, fun _ => getLsbD_edgeEn c, fun _ => getLsbD_edgeSel c⟩⟩

/-! ### GOV (R183, R184) -/

/-- `GOV 1` reloads the timer. -/
theorem exec_gov_active {s : State} (hr : cmdReady s = true) (hp : s.phase = 2) :
    exec (.gov true) s = .next { s with idleTimer := s.params.idleTimeoutTicks, phase := 0 } := by
  rw [exec, execGov, accepting_ready hr (by rw [hp]; rfl)]
  rfl

/-- `GOV 0` is the idle tick. -/
theorem exec_gov_idle {s : State} (hr : cmdReady s = true) (hp : s.phase = 2) :
    exec (.gov false) s = idleTick s := by
  rw [exec, execGov, accepting_ready hr (by rw [hp]; rfl)]
  rfl

/-- The idle tick that does not reach zero counts down. -/
theorem idleTick_counts {s : State} (h : 2 ≤ s.idleTimer) :
    idleTick s = .next { s with idleTimer := s.idleTimer - 1, phase := 0 } := by
  rw [idleTick_succ (k := s.idleTimer - 1) (by omega), if_neg (by omega)]

/-- The idle tick that reaches zero is sleep entry (R184). -/
theorem idleTick_sleeps {s : State} (h : s.idleTimer = 1) :
    idleTick s = .next { sleepEntry { s with idleTimer := 0 } with phase := 0 } := by
  rw [idleTick_succ h, if_pos rfl]

/-- Settles O42: the reload, and the three cases of the idle tick. -/
theorem govReloadsCountsDownAndSleeps : Obligations.GovReloadsCountsDownAndSleeps := by
  refine ⟨rfl, rfl, fun s hr => ⟨fun hp => ?_, fun hp f => exec_outOfPhase hr (beq_false_of_ne hp)⟩⟩
  rw [exec_gov_idle hr hp]
  exact ⟨exec_gov_active hr hp, idleTick_counts, idleTick_sleeps, idleTick_zero⟩

/-! ### Iterations (R188, R196) -/

/-- Lists of commands run one after the other. -/
theorem runProgram_append {is : List Instr} {s t : State} (h : runProgram is s = .next t) (js : List Instr) :
    runProgram (is ++ js) s = runProgram js t := by
  induction is generalizing s with
  | nil =>
    cases h
    rfl
  | cons i is ih =>
    unfold runProgram at h
    split at h
    · next u hu => exact (runProgram_cons hu (is ++ js)).trans (ih h)
    · cases h
    · cases h

/-- What SAMPLE and DEB leave (R110, R118). -/
def ticked (s : State) : State :=
  { s with raw := pressed s.pin, btn := updateAll s.params s.btn (pressed s.pin), phase := 2 }

/-- SAMPLE and DEB lead to phase 2, where GOV decides what the iteration leaves (R196). -/
theorem runProgram_iteration {f : Bool} {s t : State} (hr : cmdReady s = true) (hp : s.phase = 0)
    (h : exec (.gov f) (ticked s) = .next t) : runProgram (iteration f) s = .next t := by
  obtain ⟨-, hsample, -⟩ := sampleReadsThePins
  obtain ⟨-, hdeb, -⟩ := debUpdatesTheFourButtons
  refine (runProgram_cons (runWhole_of_exec (hsample s hr hp)) [.deb, .gov f]).trans ?_
  refine (runProgram_cons (runWhole_of_exec (hdeb _ (by exact hr) (by rfl))) [.gov f]).trans ?_
  exact runProgram_cons (runWhole_of_exec h) []

/-- What `n` idle iterations from `s` leave while the block stays awake: a block ready for the next iteration, `n`
counted off the timer, and no wire event. -/
structure IdledFor (n : Nat) (s t : State) : Prop where
  ready : cmdReady t = true
  phase : t.phase = 0
  timer : t.idleTimer = s.idleTimer - n
  params : t.params = s.params
  trace : t.trace = s.trace

/-- Fewer idle iterations than the timer has ticks leave the block awake. -/
theorem runProgram_idle_iterations {n : Nat} {s : State} (hr : cmdReady s = true) (hp : s.phase = 0)
    (hn : n < s.idleTimer) :
    ∃ t, runProgram (List.replicate n (iteration false)).flatten s = .next t ∧ IdledFor n s t := by
  induction n with
  | zero => exact ⟨s, rfl, hr, hp, rfl, rfl, rfl⟩
  | succ n ih =>
    obtain ⟨t, ht, hready, hphase, htimer, hparams, htrace⟩ := ih (by omega)
    have htwo : 2 ≤ t.idleTimer := by omega
    have htick := (exec_gov_idle (s := ticked t) hready rfl).trans (idleTick_counts htwo)
    rw [List.replicate_succ', List.flatten_concat, runProgram_append ht]
    exact ⟨_, runProgram_iteration hready hphase htick, hready, rfl, congrArg (· - 1) htimer, hparams, htrace⟩

/-- As many idle iterations as the timer has ticks end asleep, with the one event of sleep entry (R184). -/
theorem runProgram_idle_iterations_sleep {n : Nat} {s : State} (hr : cmdReady s = true) (hp : s.phase = 0)
    (hn : s.idleTimer = n + 1) :
    ∃ t, runProgram (List.replicate (n + 1) (iteration false)).flatten s = .next t ∧
      t.gstate = .asleep ∧ t.phase = 0 ∧ t.idleTimer = 0 ∧ t.trace = s.trace ++ [⟨.oeN, true⟩] := by
  obtain ⟨t, ht, hready, hphase, htimer, -, htrace⟩ := runProgram_idle_iterations hr hp (n := n) (by omega)
  have hone : t.idleTimer = 1 := by omega
  have htick := (exec_gov_idle (s := ticked t) hready rfl).trans (idleTick_sleeps hone)
  rw [List.replicate_succ', List.flatten_concat, runProgram_append ht]
  exact ⟨_, runProgram_iteration hready hphase htick, rfl, rfl, rfl, congrArg (· ++ _) htrace⟩

/-- An active iteration leaves the block ready with a full timer (R183). -/
theorem runProgram_active_iteration {s : State} (hr : cmdReady s = true) (hp : s.phase = 0) :
    ∃ t, runProgram (iteration true) s = .next t ∧
      cmdReady t = true ∧ t.phase = 0 ∧ t.idleTimer = s.params.idleTimeoutTicks :=
  ⟨_, runProgram_iteration hr hp (exec_gov_active (s := ticked s) hr rfl), hr, rfl, rfl⟩

/-- Settles O45: idle iterations count the timer off; the last tick sleeps, an active iteration before it reloads. -/
theorem sleepsAfterExactlyTheTimeout : Obligations.SleepsAfterExactlyTheTimeout := by
  intro s hr hp hpos hfull
  refine ⟨fun n hn => ?_, ?_, fun n hn => ?_⟩
  · obtain ⟨t, ht, hready, hphase, htimer, -, htrace⟩ := runProgram_idle_iterations hr hp (hfull ▸ hn)
    exact ⟨t, ht, hready, hphase, hfull ▸ htimer, htrace⟩
  · obtain ⟨n, hn⟩ := Nat.exists_eq_add_of_le' hpos
    rw [hn]
    exact runProgram_idle_iterations_sleep hr hp (hfull.trans hn)
  · obtain ⟨t, ht, hready, hphase, -, hparams, -⟩ := runProgram_idle_iterations hr hp (hfull ▸ hn)
    rw [runProgram_append ht, ← hparams]
    exact runProgram_active_iteration hready hphase

/-! ### What the governor reads (R195) -/

/-- What a GOV that answers a next state did: it was held, or reloaded, or counted down, or put the block to sleep. -/
theorem exec_gov_next {f : Bool} {s t : State} (h : exec (.gov f) s = .next t) :
    (cmdReady s = false ∧ t = s) ∨
    (cmdReady s = true ∧ s.phase = 2 ∧
      ((f = true ∧ t = { s with idleTimer := s.params.idleTimeoutTicks, phase := 0 }) ∨
        (f = false ∧ 2 ≤ s.idleTimer ∧ t = { s with idleTimer := s.idleTimer - 1, phase := 0 }) ∨
        (f = false ∧ s.idleTimer = 1 ∧ t = { sleepEntry { s with idleTimer := 0 } with phase := 0 }))) := by
  rcases exec_next h with hheld | ⟨hr, hp, he⟩
  · exact .inl hheld
  · refine .inr ⟨hr, eq_of_beq hp, ?_⟩
    cases f with
    | true => exact .inl ⟨rfl, he⟩
    | false =>
      obtain ⟨k, hk, rfl⟩ := he
      by_cases hzero : k = 0
      · subst hzero
        exact .inr (.inr ⟨rfl, hk, rfl⟩)
      · refine .inr (.inl ⟨rfl, by omega, ?_⟩)
        rw [if_neg hzero, hk, Nat.add_sub_cancel]

/-- Settles O50: the two states agree on what selects the case of GOV and on what the case writes. A case that does not
sleep leaves the governor state, so there `kept` finds the agreement on OE_N and `status` among the hypotheses. -/
theorem governorReadsNoPinAndNoButton : Obligations.GovernorReadsNoPinAndNoButton := by
  intro f s₁ s₂ t₁ htimer hparams hgstate hseqOp hphase hwake
  have hready : cmdReady s₁ = cmdReady s₂ := by rw [cmdReady, cmdReady, hgstate, hseqOp]
  have henabled : resumeEnabled s₁ = resumeEnabled s₂ := by rw [resumeEnabled, resumeEnabled, hgstate, hwake]
  have hreload : s₁.params.idleTimeoutTicks = s₂.params.idleTimeoutTicks := by rw [hparams]
  have kept {α : Type} {x y : α} {g : GState} (h : x = y ∨ g ≠ g) : y = x := (h.resolve_right (· rfl)).symm
  refine ⟨henabled, ⟨hreload, rfl, hphase, rfl, rfl, id, [⟨.oeN, false⟩], rfl, rfl⟩, fun h => ?_⟩
  rcases exec_gov_next h with ⟨hr, rfl⟩ | ⟨hr, hp, ⟨rfl, rfl⟩ | ⟨rfl, htwo, rfl⟩ | ⟨rfl, hone, rfl⟩⟩
  · exact ⟨s₂, [], exec_held (hready ▸ hr) _, htimer.symm, hgstate.symm, hphase.symm, hwake.symm, kept, kept,
      (List.append_nil _).symm, (List.append_nil _).symm⟩
  · exact ⟨_, [], exec_gov_active (hready ▸ hr) (hphase ▸ hp), hreload.symm, hgstate.symm, rfl, hwake.symm, kept, kept,
      (List.append_nil _).symm, (List.append_nil _).symm⟩
  · have hexec := (exec_gov_idle (hready ▸ hr) (hphase ▸ hp)).trans (idleTick_counts (htimer ▸ htwo))
    exact ⟨_, [], hexec, congrArg (· - 1) htimer.symm, hgstate.symm, rfl, hwake.symm, kept, kept,
      (List.append_nil _).symm, (List.append_nil _).symm⟩
  · have hexec := (exec_gov_idle (hready ▸ hr) (hphase ▸ hp)).trans (idleTick_sleeps (htimer ▸ hone))
    exact ⟨_, [⟨.oeN, true⟩], hexec, rfl, rfl, rfl, hwake.symm, fun _ => rfl, fun _ => rfl, rfl, rfl⟩

/-! ### The wake (R189 to R191) -/

theorem takeTurn_pinchg {p : Nibble} {s : State} (h : p ≠ s.pin) : takeTurn (.pinchg p) s = .next (pinChange p s) := by
  rw [takeTurn, if_neg h]

theorem takeTurn_irq {s : State} (h : irqLine s = true) : takeTurn .irq s = .next (takeInterrupt s) := by
  rw [takeTurn, if_pos h]

theorem takeTurn_resume {s : State} (h : resumeEnabled s = true) : takeTurn .resume s = .next (resume s) := by
  rw [takeTurn, if_pos h]

/-- A pin change raises the request if the level-change source is enabled (R213, R216). -/
theorem irqLine_pinChange {s : State} (h : lcEn s.intcfg = true) (p : Nibble) : irqLine (pinChange p s) = true := by
  simp [irqLine, h]

/-- The handler clears every flag, so no request is left (R219). -/
theorem irqLine_takeInterrupt (s : State) : irqLine (takeInterrupt s) = false := by
  simp [irqLine]

/-- The handler run while asleep enables the return (R190, R219). -/
theorem resumeEnabled_takeInterrupt {s : State} (h : s.gstate = .asleep) : resumeEnabled (takeInterrupt s) = true := by
  simp [resumeEnabled, h]

/-- Settles O48: neither the handler nor a pin change takes back what enables the return. -/
theorem resumeEnablesTheOutputAndReloads : Obligations.ResumeEnablesTheOutputAndReloads := by
  refine ⟨fun s henabled => ?_, fun s hasleep hwake => takeTurn_resume ((resumeEnabled_iff s).mpr ⟨hasleep, hwake⟩)⟩
  obtain ⟨hasleep, -⟩ := (resumeEnabled_iff s).mp henabled
  exact ⟨resumeEnabled_takeInterrupt hasleep, fun _ => henabled⟩

/-- Settles O49: each of the three turns enables the next. -/
theorem pinChangeWakesTheBlock : Obligations.PinChangeWakesTheBlock := by
  intro s p us hasleep hlc hp ha
  have hirq := irqLine_pinChange (s := { s with agenda := .irq :: .resume :: us }) hlc p
  have hwake := resumeEnabled_takeInterrupt (s := pinChange p { s with agenda := .resume :: us }) hasleep
  refine ⟨pinChange p { s with agenda := .irq :: .resume :: us },
    takeInterrupt (pinChange p { s with agenda := .resume :: us }),
    resume (takeInterrupt (pinChange p { s with agenda := us })), ?_, ?_, ?_, hirq, irqLine_takeInterrupt _, ?_,
    hasleep, rfl⟩
  · rw [step_agenda ha]
    exact takeTurn_pinchg hp
  · rw [step_agenda rfl]
    exact takeTurn_irq hirq
  · rw [step_agenda rfl]
    exact takeTurn_resume hwake
  · exact ((resumeEnabled_iff _).mp hwake).2

/-! ### The hung block (R194, R230) -/

/-- With no source enabled there is no request, whatever is pending (R194, R216). -/
theorem irqLine_of_noWakeSource {s : State} (h : noWakeSource s) : irqLine s = false := by
  obtain ⟨hlc, hedge⟩ := h
  simp [irqLine, hlc, hedge]

/-- In a hung block every turn but a power cycle passes, or is a pin change. -/
theorem Hung.passes_or_pinChange {u : Turn} {s : State} (h : Hung s) (hu : ∀ p, u ≠ .por p) :
    Passes u s ∨ ∃ p, takeTurn u s = .next (pinChange p s) := by
  obtain ⟨hasleep, ho, hwake, hsource⟩ := h
  cases u with
  | command => exact .inl (passes_command_of_not_ready (cmdReady_asleep hasleep))
  | ustep => exact .inl (passes_ustep ho)
  | resume => exact .inl (passes_resume (resumeEnabled_eq_false (.inr hwake)))
  | irq => exact .inl (passes_irq (irqLine_of_noWakeSource hsource))
  | pinchg p =>
    by_cases hp : p = s.pin
    · subst hp
      exact .inl (passes_pinchg s)
    · exact .inr ⟨p, takeTurn_pinchg hp⟩
  | por p => exact absurd rfl (hu p)

/-- A pin change sets pending flags, which wake nothing while no source is enabled (R194). -/
theorem Hung.pinChange {s : State} (h : Hung s) (p : Nibble) : Hung (pinChange p s) := h

/-- A hung block has no turn of its own. -/
theorem Hung.fairTurn_eq_none {s : State} (h : Hung s) : fairTurn s = none := by
  obtain ⟨hasleep, ho, hwake, hsource⟩ := h
  exact fairTurn_none (irqLine_of_noWakeSource hsource) ho (resumeEnabled_eq_false (.inr hwake))
    (.inl (cmdReady_asleep hasleep))

/-- Settles O56: no turn on the agenda moves the block out, and with an empty agenda it waits. -/
theorem hungBlockStaysHung : Obligations.HungBlockStaysHung := by
  intro s hs hpor
  cases ha : s.agenda with
  | nil => exact ⟨s, step_waits ha hs.fairTurn_eq_none, hs, rfl, rfl⟩
  | cons u us =>
    rw [step_agenda ha]
    have hs' : Hung { s with agenda := us } := hs
    rcases hs'.passes_or_pinChange fun p hu => hpor p us (hu ▸ ha) with hpass | ⟨p, hpin⟩
    · exact ⟨_, hpass, hs', rfl, rfl⟩
    · exact ⟨_, hpin, hs'.pinChange p, rfl, rfl⟩

end Sys2Proof.Machine

/-! Proofs of the statements about the pending flags: who sets and clears them, the request line, and the handler
(60_exceptions.md). -/

namespace Sys2Proof.Machine

/-! ### Four-bit vectors, button by button (R7, R62) -/

@[simp] theorem buttonBit_or (v w : Nibble) (b : ButtonId) :
    buttonBit (v ||| w) b = (buttonBit v b || buttonBit w b) :=
  BitVec.getLsbD_or

@[simp] theorem buttonBit_and (v w : Nibble) (b : ButtonId) :
    buttonBit (v &&& w) b = (buttonBit v b && buttonBit w b) :=
  BitVec.getLsbD_and

@[simp] theorem buttonBit_xor (v w : Nibble) (b : ButtonId) :
    buttonBit (v ^^^ w) b = (buttonBit v b ^^ buttonBit w b) :=
  BitVec.getLsbD_xor

@[simp] theorem buttonBit_zero (b : ButtonId) : buttonBit 0#4 b = false := BitVec.getLsbD_zero

/-- The complement button by button; `pressed` is the model's name for it. -/
@[simp] theorem buttonBit_not (v : Nibble) (b : ButtonId) : buttonBit (~~~v) b = !buttonBit v b :=
  buttonBit_pressed v b

/-- Two vectors with the same four bits are equal. -/
theorem buttonBit_ext {v w : Nibble} (h : ∀ b, buttonBit v b = buttonBit w b) : v = w := by
  apply BitVec.eq_of_getLsbD_eq
  intro k hk
  interval_cases k
  exacts [h .red, h .green, h .blue, h .key]

/-- A vector is not zero exactly when the bit of some button is 1. -/
theorem ne_zero_iff_exists_buttonBit (v : Nibble) : v ≠ 0 ↔ ∃ b, buttonBit v b = true := by
  constructor
  · intro hne
    by_contra hnone
    exact hne (buttonBit_ext fun b => by simpa using fun hb => hnone ⟨b, hb⟩)
  · rintro ⟨b, hb⟩ rfl
    simp at hb

/-! ### A pin change (R213, R215) -/

/-- A pin makes its selected transition: 1 to 0 where 0 is selected, 0 to 1 where 1 is (R215). -/
theorem buttonBit_selectedEdges (old new sel : Nibble) (b : ButtonId) :
    buttonBit (selectedEdges old new sel) b = true ↔
      (buttonBit old b = true ∧ buttonBit new b = false ∧ buttonBit sel b = false) ∨
      (buttonBit old b = false ∧ buttonBit new b = true ∧ buttonBit sel b = true) := by
  simp [selectedEdges, and_assoc]

/-- With no pin in both parts of a change, each pin makes its transition in one of them. -/
theorem selectedEdges_disjoint {m n : Nibble} (hdisjoint : m &&& n = 0) (pin sel : Nibble) :
    selectedEdges pin (pin ^^^ m ^^^ n) sel =
      selectedEdges pin (pin ^^^ m) sel ||| selectedEdges (pin ^^^ m) (pin ^^^ m ^^^ n) sel := by
  apply buttonBit_ext
  intro b
  have hb : buttonBit m b = true → buttonBit n b = false := by simpa using congrArg (buttonBit · b) hdisjoint
  cases hm : buttonBit m b with
  | false => simp [selectedEdges, hm]
  | true => simp [selectedEdges, hm, hb hm]

/-- Settles O51: the flags of the change bit by bit, and the flags of its parts together. -/
theorem pinChangeSetsThePendingFlags : Obligations.PinChangeSetsThePendingFlags := by
  refine ⟨fun s p hp => ⟨pinChange p s, takeTurn_pinchg hp, rfl, fun b => ?_⟩, fun s m n hdisjoint => ?_⟩
  · rw [pinChange_edgePending, buttonBit_or, Bool.or_eq_true, buttonBit_selectedEdges]
  · have hedges := selectedEdges_disjoint hdisjoint s.pin (edgeSel s.intcfg)
    simp [pinChange, hedges, BitVec.or_assoc]

/-! ### The request line (R216) -/

/-- Settles O53: the conjunction of enables and flags is not zero exactly when it has a bit that is 1. -/
theorem requestLineIsTheOrOfEnabledFlags : Obligations.RequestLineIsTheOrOfEnabledFlags := by
  intro s
  have hedges := ne_zero_iff_exists_buttonBit (edgeEn s.intcfg &&& s.edgePending)
  simp only [buttonBit_and, Bool.and_eq_true] at hedges
  rw [irqLine, Bool.or_eq_true, Bool.and_eq_true, bne_iff_ne, hedges]

/-! ### Commands and the pending flags (R217) -/

/-- The state with the five pending flags at the values given (R36). -/
def withPending (lc : Bool) (edge : Nibble) (s : State) : State := { s with lcPending := lc, edgePending := edge }

/-- Whether a command is accepted does not depend on the flags, so it is enough that its effect ignores them. -/
theorem accepting_withPending {ps : List (BitVec 2)} {f : State → Host.Outcome State Fault Refusal} {s t : State}
    {lc : Bool} {edge : Nibble}
    (heffect : f s = .next t → f (withPending lc edge s) = .next (withPending lc edge t))
    (h : accepting ps f s = .next t) :
    accepting ps f (withPending lc edge s) = .next (withPending lc edge t) := by
  rcases accepting_next h with ⟨hr, rfl⟩ | ⟨hr, hp, he⟩
  · exact accepting_held hr
  · exact (accepting_ready (s := withPending lc edge s) hr hp).trans (heffect he)

theorem idleTick_withPending {s t : State} (h : idleTick s = .next t) (lc : Bool) (edge : Nibble) :
    idleTick (withPending lc edge s) = .next (withPending lc edge t) := by
  obtain ⟨k, hk, rfl⟩ := idleTick_next h
  rw [idleTick_succ (s := withPending lc edge s) hk]
  cases k <;> rfl

/-- MAIN reads and writes no pending flag (R217): with other flags a command does the same and leaves those flags. -/
theorem exec_withPending {i : Instr} {s t : State} (h : exec i s = .next t) (lc : Bool) (edge : Nibble) :
    exec i (withPending lc edge s) = .next (withPending lc edge t) := by
  cases i with
  | gov f =>
    simp only [exec, execGov] at h ⊢
    refine accepting_withPending (fun he => ?_) h
    cases f with
    | true =>
      cases he
      rfl
    | false => exact idleTick_withPending he lc edge
  | _ =>
    simp only [exec, execSample, execDeb, execClrr, execClrf, execOe, execSrrst, execWrite, execStatus,
      execCfgint] at h ⊢
    refine accepting_withPending (fun he => ?_) h
    cases he
    rfl

/-- A command leaves the five flags: it leaves any values, so those that stood there. -/
theorem exec_pending {i : Instr} {s t : State} (h : exec i s = .next t) :
    t.lcPending = s.lcPending ∧ t.edgePending = s.edgePending := by
  have hsame : Host.Outcome.next t = .next (withPending s.lcPending s.edgePending t) :=
    h.symm.trans (exec_withPending h s.lcPending s.edgePending)
  injection hsame with ht
  exact ⟨(congrArg State.lcPending ht :), (congrArg State.edgePending ht :)⟩

theorem ustep_pending {s t : State} (h : ustep s = .next t) :
    t.lcPending = s.lcPending ∧ t.edgePending = s.edgePending := by
  rw [ustep_frame h]
  exact ⟨rfl, rfl⟩

/-- A turn of MAIN leaves the five flags (R217). -/
theorem takeTurn_main_pending {u : Turn} {s t : State} (hu : u = .command ∨ u = .ustep ∨ u = .resume)
    (h : takeTurn u s = .next t) : t.lcPending = s.lcPending ∧ t.edgePending = s.edgePending := by
  rcases takeTurn_next h with rfl | ⟨i, w, ws, -, -, -, -, he⟩ | ⟨-, hstep⟩ | ⟨-, -, rfl⟩ | ⟨rfl, -⟩ | ⟨p, rfl, -⟩ |
    ⟨p, rfl, -⟩
  · exact ⟨rfl, rfl⟩
  · exact exec_pending (s := { s with cmds := ws }) he
  · exact ustep_pending hstep
  · exact ⟨resume_lcPending s, resume_edgePending s⟩
  all_goals simp at hu

/-- A pin change keeps the flags that are set (R213). -/
theorem takeTurn_pinchg_pending {p : Nibble} {s t : State} (h : takeTurn (.pinchg p) s = .next t) :
    (s.lcPending = true → t.lcPending = true) ∧
      ∀ b, buttonBit s.edgePending b = true → buttonBit t.edgePending b = true := by
  by_cases hp : p = s.pin
  · subst hp
    cases h.symm.trans (passes_pinchg s)
    exact ⟨id, fun _ => id⟩
  · cases h.symm.trans (takeTurn_pinchg hp)
    exact ⟨fun _ => rfl, fun b hb => by simp [hb]⟩

/-- Settles O54: one lemma for each agent; a power cycle gives the flags their reset values. -/
theorem pendingFlagsAreNotMainsToWrite : Obligations.PendingFlagsAreNotMainsToWrite := by
  intro u s t h
  refine ⟨fun hu => takeTurn_main_pending hu h, ?_, ?_⟩
  · rintro ⟨p, rfl⟩
    exact takeTurn_pinchg_pending h
  · rintro ⟨p, rfl⟩
    cases h
    exact ⟨rfl, rfl⟩

/-! ### The handler (R219, R221) -/

theorem takeInterrupt_asleep {s : State} (h : s.gstate = .asleep) :
    takeInterrupt s = { withPending false 0 s with wakeLatch := true } := by
  rw [takeInterrupt, if_pos h, withPending]

/-- Run while Active, the handler clears the flags and does nothing else (R219). -/
theorem takeInterrupt_active {s : State} (h : s.gstate = .active) : takeInterrupt s = withPending false 0 s := by
  simp [takeInterrupt, withPending, h]

/-- Settles O55: clearing the flags is all the handler does while Active, and no command reads them. -/
theorem handlerWhileActiveDoesNotDisturbCommands : Obligations.HandlerWhileActiveDoesNotDisturbCommands := by
  intro i s t hactive h
  rw [takeInterrupt_active hactive]
  exact exec_withPending h false 0

/-- Settles O52: the turn is the handler's step, in either state of the governor. -/
theorem handlerAcknowledgesEveryFlag : Obligations.HandlerAcknowledgesEveryFlag :=
  fun s hirq =>
    ⟨takeInterrupt s, takeTurn_irq hirq, irqLine_takeInterrupt s, takeInterrupt_asleep, takeInterrupt_active⟩

end Sys2Proof.Machine

/-! Proofs of the statements about the start-up sequence and the power cycle (70_reset_and_hazards.md). -/

namespace Sys2Proof.Machine

/-! ### The start-up sequence (R253) -/

/-- OE has no micro-steps, so run whole it is its one wire event (R140). -/
theorem runWhole_oe {f : Bool} {s : State} (hr : cmdReady s = true) (hp : s.phase = 0 ∨ s.phase = 2) :
    runWhole (.oe f) s = .next (wire .oeN (!f) s) :=
  runWhole_of_exec (exec_oe hr hp)

/-- The start-up sequence on any ready block with idle lines: SRRST and WRITE 0 leave zeros in every stage and every
latch, and then OE enables the outputs (R253). -/
theorem runProgram_startup {s : State} (h : ReadyForSerial s) :
    runProgram (expand .startup) s = .next { s with
      seqVal := 0
      seqI := 0
      seqStep := 0
      lines := { s.lines with data := false, oeN := false }
      ext := ⟨specified 0, specified 0⟩
      trace := s.trace ++ srrstEvents ++ writeEvents 0 ++ [⟨.oeN, false⟩] } := by
  obtain ⟨hr, hp, hlines⟩ := h
  obtain ⟨-, hidle⟩ := (cmdReady_iff s).mp hr
  obtain ⟨hclk, hlatch, hrst⟩ := (linesInv_idle hidle).mp hlines
  have hsrrst := wholeSrrstClearsTheStages.2 s hr hp hrst
  refine (runProgram_cons hsrrst _).trans ?_
  refine (runProgram_cons (runWhole_write 0 (by exact hr) (by exact hp) (by exact hclk) (by exact hlatch)
    (by exact hrst)) _).trans ?_
  refine (runProgram_cons (runWhole_oe (by exact hr) (by exact hp)) []).trans ?_
  rw [wire_oeN]
  rfl

theorem readyForSerial_powerOn (p : Params) (pins : Nibble) : ReadyForSerial (.powerOn p pins) :=
  ⟨rfl, .inl rfl, linesInv_powerOn p pins⟩

/-- Settles O36: power-on leaves the block as the start-up sequence needs it, and the latched zeros show on every LED
once the outputs are enabled. -/
theorem startupLeavesAZeroedEnabledDisplay : Obligations.StartupLeavesAZeroedEnabledDisplay := by
  intro p pins
  refine ⟨_, runProgram_startup (readyForSerial_powerOn p pins), rfl, rfl, fun i hi => ?_⟩
  exact led_enabled rfl (by simp [shifting_iff, State.powerOn]) (by simp [specified, hi])

/-! ### The power cycle (R250, R251) -/

/-- Nothing shows after a power cycle: the reset levels of the lines disable the outputs (R34, R160). -/
theorem led_powerCycle (p : Nibble) (s : State) (i : Nat) : led (powerCycle p s) i = some false :=
  led_disabled rfl i

/-- The reset value of `INTCFG` enables no source, so there is no request (R37, R216). -/
theorem irqLine_powerCycle (p : Nibble) (s : State) : irqLine (powerCycle p s) = false :=
  irqLine_of_noWakeSource (by decide : lcEn 0 = false ∧ edgeEn 0 = 0)

/-- Settles O57: the turn is the power cycle, which keeps nothing of a sequence in progress, of sleep or of a
request. -/
theorem powerCycleGivesTheResetTable : Obligations.PowerCycleGivesTheResetTable := by
  intro s p
  refine ⟨powerCycle p s, rfl, fun b => ?_, rfl, rfl, rfl, rfl, rfl, rfl, rfl, rfl, rfl, rfl, rfl, rfl, rfl, rfl, rfl,
    led_powerCycle p s, irqLine_powerCycle p s, rfl, rfl, rfl⟩
  cases b <;> rfl

end Sys2Proof.Machine
